-- ==== Sys2Proof/Word.lean ====
section
/-! DEFINITION. The word types of the block: register addresses and data are bytes, a command is 16 bits, a failure
token is an opaque byte (spec/00_scope.md R5, R11). -/

namespace Sys2Proof

/-- A byte of the register bus: register addresses and register data (R5 `REG_ADDR_WIDTH`, `REG_DATA_WIDTH`). -/
abbrev Byte := BitVec 8

/-- A host command word (R5 `CMD_WIDTH`, R86). -/
abbrev CmdWord := BitVec 16

/-- A 7-bit device address of the bus (R21). -/
abbrev DevAddr := BitVec 7

/-- `TransportFailure`: the token of a failed transaction, an opaque byte (R5; decision D31 of the spec). -/
abbrev Token := BitVec 8

end Sys2Proof
end

