-- ==== Sys2Proof/Syntax.lean ====
section
/-! DEFINITION. The instructions: the 19 host commands of spec/30_encoding.md R86 and the five register-format rows
R80 to R83 and R97, one constructor per row of spec/opcode_table.json. -/

namespace Sys2Proof

/-- One constructor per row of the opcode table. The argument of a command is the raw 8-bit `arg` of its word: values
outside a field's code set are legal words that answer InvalidConfigValue (R99, R223). -/
inductive Instr where
  /-- INIT: construct the block instance; `arg` is the device address (R111) -/
  | init (arg : Byte)
  /-- SET_OSRS_H: humidity oversampling (R145) -/
  | setOsrsH (arg : Byte)
  /-- SET_OSRS_T: temperature oversampling (R146) -/
  | setOsrsT (arg : Byte)
  /-- SET_OSRS_P: pressure oversampling (R147) -/
  | setOsrsP (arg : Byte)
  /-- SET_MODE: power mode (R171) -/
  | setMode (arg : Byte)
  /-- SET_STANDBY: standby-time code (R148) -/
  | setStandby (arg : Byte)
  /-- SET_FILTER: IIR filter code (R149) -/
  | setFilter (arg : Byte)
  /-- GET_OSRS_H (R152) -/
  | getOsrsH
  /-- GET_OSRS_T (R153) -/
  | getOsrsT
  /-- GET_OSRS_P (R154) -/
  | getOsrsP
  /-- GET_MODE (R172) -/
  | getMode
  /-- GET_STANDBY (R155) -/
  | getStandby
  /-- GET_FILTER (R156) -/
  | getFilter
  /-- GET_COEFF: one coefficient register; `arg` is its index (R120, R98) -/
  | getCoeff (arg : Byte)
  /-- READ: one raw sample (R177) -/
  | read
  /-- GET_MEASURING: probe status bit 3 (R200) -/
  | getMeasuring
  /-- GET_IM_UPDATE: probe status bit 0 (R201) -/
  | getImUpdate
  /-- READ_CHIP_ID (R202) -/
  | readChipId
  /-- SOFT_RESET (R203) -/
  | softReset
  /-- REG_CTRL_HUM: the byte `00000hhh` written to 0xF2 (R80) -/
  | regCtrlHum (osrsH : BitVec 3)
  /-- REG_CTRL_MEAS: the byte `tttpppmm` written to 0xF4 (R81) -/
  | regCtrlMeas (osrsT osrsP : BitVec 3) (mode : BitVec 2)
  /-- REG_CONFIG: the byte `sssfff00` written to 0xF5 (R82) -/
  | regConfig (tSb filter : BitVec 3)
  /-- REG_STATUS: the byte `xxxxmxxi` read from 0xF3; bits 7:4 and 2:1 may hold anything (R83) -/
  | regStatus (ignHi : BitVec 4) (measuring : BitVec 1) (ignLo : BitVec 2) (imUpdate : BitVec 1)
  /-- REG_RESET: the byte 0xB6 written to 0xE0 (R97) -/
  | regReset
  deriving DecidableEq, Repr

/-- Is it one of the 19 host commands (format CMD16), not a register-format row? -/
def Instr.isCommand : Instr → Bool
  | .init _ | .setOsrsH _ | .setOsrsT _ | .setOsrsP _ | .setMode _ | .setStandby _ | .setFilter _ => true
  | .getOsrsH | .getOsrsT | .getOsrsP | .getMode | .getStandby | .getFilter | .getCoeff _ => true
  | .read | .getMeasuring | .getImUpdate | .readChipId | .softReset => true
  | .regCtrlHum _ | .regCtrlMeas _ _ _ | .regConfig _ _ | .regStatus _ _ _ _ | .regReset => false

end Sys2Proof
end

