-- ==== Sys2Proof/Decode.lean ====
section
/-! DEFINITION. Decode and encode. A command is one 16-bit word on the command port (spec/30_encoding.md R86, R92, R94).
A register-format row is one byte carried by a transaction at the row's address and in the row's direction (R80 to R83,
R97): the address is part of the code, since the byte alone does not name the register. -/

namespace Sys2Proof

/-- What is decoded: a command word, or the data byte of a register transaction. -/
inductive Code where
  /-- a word on the command port (R86) -/
  | command (w : CmdWord)
  /-- a byte the block writes to a register address -/
  | regWrite (addr b : Byte)
  /-- a byte the block reads from a register address -/
  | regRead (addr b : Byte)
  deriving DecidableEq, Repr

/-- Why a code is no instruction. -/
inductive DecodeError where
  /-- an `op` value outside R86 (R92) -/
  | illegalOpcode
  /-- a command that takes no argument, with `arg ≠ 0` (R92) -/
  | argumentNotZero
  /-- a byte whose bits differ from the zeros the block always writes (R93) -/
  | reservedBits
  /-- a byte other than 0xB6 at the reset register (R97) -/
  | notTheResetByte
  /-- an address and direction no register-format row names -/
  | noSuchFormat
  deriving DecidableEq, Repr

/-- `op`, bits 15:8 of the word (R86). -/
def opOf (w : CmdWord) : Byte := w.extractLsb' 8 8

/-- `arg`, bits 7:0 of the word (R86). -/
def argOf (w : CmdWord) : Byte := w.extractLsb' 0 8

/-- A command that takes no argument must have `arg = 0` (R86, R92). -/
def noArg (arg : Byte) (i : Instr) : Except DecodeError Instr :=
  if arg = 0 then .ok i else .error .argumentNotZero

/-- The decoder of the command port: split the word, look `op` up, else illegal (R94). -/
def decodeCommand (w : CmdWord) : Except DecodeError Instr :=
  let arg := argOf w
  if opOf w = 0x01 then .ok (.init arg)
  else if opOf w = 0x10 then .ok (.setOsrsH arg)
  else if opOf w = 0x11 then .ok (.setOsrsT arg)
  else if opOf w = 0x12 then .ok (.setOsrsP arg)
  else if opOf w = 0x13 then .ok (.setMode arg)
  else if opOf w = 0x14 then .ok (.setStandby arg)
  else if opOf w = 0x15 then .ok (.setFilter arg)
  else if opOf w = 0x20 then noArg arg .getOsrsH
  else if opOf w = 0x21 then noArg arg .getOsrsT
  else if opOf w = 0x22 then noArg arg .getOsrsP
  else if opOf w = 0x23 then noArg arg .getMode
  else if opOf w = 0x24 then noArg arg .getStandby
  else if opOf w = 0x25 then noArg arg .getFilter
  else if opOf w = 0x28 then .ok (.getCoeff arg)
  else if opOf w = 0x30 then noArg arg .read
  else if opOf w = 0x40 then noArg arg .getMeasuring
  else if opOf w = 0x41 then noArg arg .getImUpdate
  else if opOf w = 0x42 then noArg arg .readChipId
  else if opOf w = 0x50 then noArg arg .softReset
  else .error .illegalOpcode

/-- The byte written to a register: R80, R81, R82 and R97, by address. -/
def decodeRegWrite (addr b : Byte) : Except DecodeError Instr :=
  if addr = 0xF2 then
    if b.extractLsb' 3 5 = 0 then .ok (.regCtrlHum (b.extractLsb' 0 3)) else .error .reservedBits
  else if addr = 0xF4 then
    .ok (.regCtrlMeas (b.extractLsb' 5 3) (b.extractLsb' 2 3) (b.extractLsb' 0 2))
  else if addr = 0xF5 then
    if b.extractLsb' 0 2 = 0 then .ok (.regConfig (b.extractLsb' 5 3) (b.extractLsb' 2 3))
    else .error .reservedBits
  else if addr = 0xE0 then
    if b = 0xB6 then .ok .regReset else .error .notTheResetByte
  else .error .noSuchFormat

/-- The byte read from a register: the status row, R83. -/
def decodeRegRead (addr b : Byte) : Except DecodeError Instr :=
  if addr = 0xF3 then
    .ok (.regStatus (b.extractLsb' 4 4) (b.extractLsb' 3 1) (b.extractLsb' 1 2) (b.extractLsb' 0 1))
  else .error .noSuchFormat

/-- The decoder, total on every code. -/
def decode : Code → Except DecodeError Instr
  | .command w => decodeCommand w
  | .regWrite addr b => decodeRegWrite addr b
  | .regRead addr b => decodeRegRead addr b

/-- A command word: `{op, arg}` (R86). -/
def commandWord (op arg : Byte) : CmdWord := op ++ arg

/-- The encoder: the word of a command (R86), or the register transaction of a format row (R80 to R83, R97). -/
def encode : Instr → Code
  | .init arg => .command (commandWord 0x01 arg)
  | .setOsrsH arg => .command (commandWord 0x10 arg)
  | .setOsrsT arg => .command (commandWord 0x11 arg)
  | .setOsrsP arg => .command (commandWord 0x12 arg)
  | .setMode arg => .command (commandWord 0x13 arg)
  | .setStandby arg => .command (commandWord 0x14 arg)
  | .setFilter arg => .command (commandWord 0x15 arg)
  | .getOsrsH => .command (commandWord 0x20 0)
  | .getOsrsT => .command (commandWord 0x21 0)
  | .getOsrsP => .command (commandWord 0x22 0)
  | .getMode => .command (commandWord 0x23 0)
  | .getStandby => .command (commandWord 0x24 0)
  | .getFilter => .command (commandWord 0x25 0)
  | .getCoeff arg => .command (commandWord 0x28 arg)
  | .read => .command (commandWord 0x30 0)
  | .getMeasuring => .command (commandWord 0x40 0)
  | .getImUpdate => .command (commandWord 0x41 0)
  | .readChipId => .command (commandWord 0x42 0)
  | .softReset => .command (commandWord 0x50 0)
  | .regCtrlHum h => .regWrite 0xF2 ((0 : BitVec 5) ++ h)
  | .regCtrlMeas t p m => .regWrite 0xF4 (t ++ p ++ m)
  | .regConfig sb f => .regWrite 0xF5 (sb ++ f ++ (0 : BitVec 2))
  | .regStatus hi m lo i => .regRead 0xF3 (hi ++ m ++ lo ++ i)
  | .regReset => .regWrite 0xE0 0xB6

/-- Whether the fixed bits of a REG8 row accept the byte: `mask` bits of the byte equal `pat`. -/
def rowFits (mask pat b : Byte) : Bool := b &&& mask == pat

/-- The register a bare byte is taken to belong to, for `decodeTableWord` alone: the row with the most fixed bits that
fits it (REG_RESET, then REG_CTRL_HUM, then REG_CONFIG, then REG_CTRL_MEAS); the byte does not name its register
(notes/assumptions/12.md). -/
def codeOfBareByte (b : Byte) : Code :=
  if rowFits 0xFF 0xB6 b then .regWrite 0xE0 b
  else if rowFits 0xF8 0x00 b then .regWrite 0xF2 b
  else if rowFits 0x03 0x00 b then .regWrite 0xF5 b
  else .regWrite 0xF4 b

/-- The code of a table row's bits: 16 bits are a command word, 8 bits the byte of a register row. -/
def codeOfTableWord (nbits w : Nat) : Option Code :=
  if nbits = 16 then some (.command (BitVec.ofNat 16 w))
  else if nbits = 8 then some (codeOfBareByte (BitVec.ofNat 8 w))
  else none

/-- The instruction the decoder reads from a table row's bits. -/
def decodeTableWord (nbits w : Nat) : Option Instr :=
  match codeOfTableWord nbits w with
  | some c => (decode c).toOption
  | none => none

/-- A row of the opcode table: its width, and the mask and match of its fixed bits. -/
structure TableRow where
  nbits : Nat
  mask : Nat
  pat : Nat
  deriving DecidableEq, Repr

/-- The row of spec/opcode_table.json an instruction belongs to. -/
def tableRow : Instr → TableRow
  | .init _ => ⟨16, 0xFF00, 0x0100⟩
  | .setOsrsH _ => ⟨16, 0xFF00, 0x1000⟩
  | .setOsrsT _ => ⟨16, 0xFF00, 0x1100⟩
  | .setOsrsP _ => ⟨16, 0xFF00, 0x1200⟩
  | .setMode _ => ⟨16, 0xFF00, 0x1300⟩
  | .setStandby _ => ⟨16, 0xFF00, 0x1400⟩
  | .setFilter _ => ⟨16, 0xFF00, 0x1500⟩
  | .getOsrsH => ⟨16, 0xFFFF, 0x2000⟩
  | .getOsrsT => ⟨16, 0xFFFF, 0x2100⟩
  | .getOsrsP => ⟨16, 0xFFFF, 0x2200⟩
  | .getMode => ⟨16, 0xFFFF, 0x2300⟩
  | .getStandby => ⟨16, 0xFFFF, 0x2400⟩
  | .getFilter => ⟨16, 0xFFFF, 0x2500⟩
  | .getCoeff _ => ⟨16, 0xFF00, 0x2800⟩
  | .read => ⟨16, 0xFFFF, 0x3000⟩
  | .getMeasuring => ⟨16, 0xFFFF, 0x4000⟩
  | .getImUpdate => ⟨16, 0xFFFF, 0x4100⟩
  | .readChipId => ⟨16, 0xFFFF, 0x4200⟩
  | .softReset => ⟨16, 0xFFFF, 0x5000⟩
  | .regCtrlHum _ => ⟨8, 0xF8, 0x00⟩
  | .regCtrlMeas _ _ _ => ⟨8, 0x00, 0x00⟩
  | .regConfig _ _ => ⟨8, 0x03, 0x00⟩
  | .regStatus _ _ _ _ => ⟨8, 0x00, 0x00⟩
  | .regReset => ⟨8, 0xFF, 0xB6⟩

/-- The width of a code in bits. -/
def Code.nbits : Code → Nat
  | .command _ => 16
  | .regWrite _ _ | .regRead _ _ => 8

/-- The bits of a code as a number, bit 0 the least significant. -/
def Code.bits : Code → Nat
  | .command w => w.toNat
  | .regWrite _ b | .regRead _ b => b.toNat

end Sys2Proof
end

