-- ==== Sys2Proof/Machine/Operands.lean ====
section
/-! DEFINITION. Operands: the code tables of spec/30_encoding.md section 3, the argument checks of R99 and R223, the
DeviceConfig shadow (spec/10_state.md R28 to R33), and how an argument becomes a field. -/

namespace Sys2Proof.Machine

/-- The register addresses of R51. -/
def addrCtrlHum : Byte := 0xF2
/-- status (R51) -/
def addrStatus : Byte := 0xF3
/-- ctrl-meas (R51) -/
def addrCtrlMeas : Byte := 0xF4
/-- config (R51) -/
def addrConfig : Byte := 0xF5
/-- chip-id (R51) -/
def addrChipId : Byte := 0xD0
/-- reset (R51) -/
def addrReset : Byte := 0xE0
/-- the lowest address of the data block (R51, R85) -/
def addrData : Byte := 0xF7

/-- The one value ever written to the reset register (R97). -/
def softResetMagic : Byte := 0xB6

/-- `MODE_SLEEP` (R89; the numbers are the sensor family's, G1 of the spec, notes/assumptions/15.md) -/
def modeSleep : BitVec 2 := 0
/-- `MODE_FORCED` (R89) -/
def modeForced : BitVec 2 := 1
/-- `MODE_NORMAL` (R89) -/
def modeNormal : BitVec 2 := 3

/-- The shadow of the three control registers (R28 to R32). -/
structure DeviceConfig where
  osrsH : BitVec 3
  osrsT : BitVec 3
  osrsP : BitVec 3
  mode : BitVec 2
  tSb : BitVec 3
  filter : BitVec 3
  deriving DecidableEq, Repr

/-- The documented defaults (R33): x1 oversampling everywhere, sleep, 1000 ms standby, filter off. -/
def DeviceConfig.defaults : DeviceConfig where
  osrsH := 1
  osrsT := 1
  osrsP := 1
  mode := modeSleep
  tSb := 5
  filter := 0

/-- SET_OSRS_*: the oversampling codes are 0..5 (R88). -/
def oversamplingLegal (arg : Byte) : Bool := decide (arg.toNat ≤ 5)

/-- SET_MODE: the mode codes are 0, 1 and 3 (R89). -/
def modeLegal (arg : Byte) : Bool := arg == 0 || arg == 1 || arg == 3

/-- SET_STANDBY: the standby codes are 0..7 (R90). -/
def standbyLegal (arg : Byte) : Bool := decide (arg.toNat ≤ 7)

/-- SET_FILTER: the filter codes are 0..4 (R91). -/
def filterLegal (arg : Byte) : Bool := decide (arg.toNat ≤ 4)

/-- INIT: a 7-bit device address, bit 7 is 0 (R99, R111). -/
def addressLegal (arg : Byte) : Bool := !arg.getLsbD 7

/-- GET_COEFF: the coefficient indices are 0..17 (R98). -/
def coeffIndexLegal (arg : Byte) : Bool := decide (arg.toNat ≤ 17)

/-- Every field is in its code set (R29 to R32, R157). -/
def DeviceConfig.legal (c : DeviceConfig) : Bool :=
  oversamplingLegal (c.osrsH.setWidth 8) && oversamplingLegal (c.osrsT.setWidth 8) &&
    oversamplingLegal (c.osrsP.setWidth 8) && modeLegal (c.mode.setWidth 8) &&
    standbyLegal (c.tSb.setWidth 8) && filterLegal (c.filter.setWidth 8)

/-- A legal argument is stored unchanged: its low 3 bits (R99). -/
def argCode3 (arg : Byte) : BitVec 3 := arg.extractLsb' 0 3

/-- A legal mode argument is stored unchanged: its low 2 bits (R99). -/
def argCode2 (arg : Byte) : BitVec 2 := arg.extractLsb' 0 2

/-- `arg[6:0]`, the device address of INIT (R111). -/
def argDevAddr (arg : Byte) : DevAddr := arg.extractLsb' 0 7

/-- R88: what an oversampling code stands for; `some 0` is skip, `none` is outside the enumeration. -/
def oversamplingFactor (code : Nat) : Option Nat := [0, 1, 2, 4, 8, 16][code]?

/-- R91: the IIR filter coefficient of a code; `some 0` is off, `none` is outside the enumeration. -/
def filterCoefficient (code : Nat) : Option Nat := [0, 2, 4, 8, 16][code]?

/-- R90: the standby time of a code in microseconds; no rule of the block depends on it. -/
def standbyMicros (code : Nat) : Option Nat :=
  [500, 62500, 125000, 250000, 500000, 1000000, 10000, 20000][code]?

end Sys2Proof.Machine
end

