-- ==== Sys2Proof/Machine/Codec.lean ====
section
/-! DEFINITION. The Register Codec: the three encoders, their derived inverses, and the measurement duration
(spec/41_codec_config.md R140 to R143, spec/42_mode_read.md R174, R175) and the sample assembly (R178). -/

namespace Sys2Proof.Machine

/-- `enc_ctrl_hum` (R140): the oversampling code masked to 3 bits. -/
def encCtrlHum (osrsH : Byte) : Byte := osrsH &&& 0x07

/-- `enc_ctrl_meas` (R141). -/
def encCtrlMeas (osrsT osrsP mode : Byte) : Byte := (osrsT <<< 5) ||| (osrsP <<< 2) ||| mode

/-- `enc_config` (R142): bits 1:0 are 0. -/
def encConfig (tSb filter : Byte) : Byte := (tSb <<< 5) ||| (filter <<< 2) ||| 0

/-- ctrl-hum as DeviceConfig has it. -/
def DeviceConfig.ctrlHum (c : DeviceConfig) : Byte := encCtrlHum (c.osrsH.setWidth 8)

/-- ctrl-meas as DeviceConfig has it. -/
def DeviceConfig.ctrlMeas (c : DeviceConfig) : Byte :=
  encCtrlMeas (c.osrsT.setWidth 8) (c.osrsP.setWidth 8) (c.mode.setWidth 8)

/-- config as DeviceConfig has it. -/
def DeviceConfig.config (c : DeviceConfig) : Byte := encConfig (c.tSb.setWidth 8) (c.filter.setWidth 8)

/-- `dec_ctrl_hum` (R143): `b[2:0]`; no command uses it. -/
def decCtrlHum (b : Byte) : BitVec 3 := b.extractLsb' 0 3

/-- `dec_ctrl_meas` (R143): `b[7:5]`, `b[4:2]`, `b[1:0]`; no command uses it. -/
def decCtrlMeas (b : Byte) : BitVec 3 × BitVec 3 × BitVec 2 :=
  (b.extractLsb' 5 3, b.extractLsb' 2 3, b.extractLsb' 0 2)

/-- `dec_config` (R143): `b[7:5]`, `b[4:2]`; no command uses it. -/
def decConfig (b : Byte) : BitVec 3 × BitVec 3 := (b.extractLsb' 5 3, b.extractLsb' 2 3)

/-- `duration_us` (R175), term by term as R174 writes it, in whole microseconds. -/
def durationUs (osrsT osrsP osrsH : Nat) : Nat :=
  1250 + 2300 * osrsT + (2300 * osrsP + 575) + (2300 * osrsH + 575)

/-- The duration of the current shadow codes. -/
def DeviceConfig.durationUs (c : DeviceConfig) : Nat :=
  Machine.durationUs c.osrsT.toNat c.osrsP.toNat c.osrsH.toNat

/-- One 20-bit quantity of the data block, MSB first and left-aligned: the low nibble of the third byte is dropped
(R54, R178). -/
def raw20 (b0 b1 b2 : Byte) : BitVec 20 :=
  (b0.setWidth 20 <<< 12) ||| (b1.setWidth 20 <<< 4) ||| (b2.setWidth 20 >>> 4)

/-- The 16-bit humidity quantity, MSB first (R54, R178). -/
def raw16 (b6 b7 : Byte) : BitVec 16 := (b6.setWidth 16 <<< 8) ||| b7.setWidth 16

/-- RawSample (R34): the three raw words of one READ. -/
structure RawSample where
  press : BitVec 20
  temp : BitVec 20
  hum : BitVec 16
  deriving DecidableEq, Repr

/-- The sample the eight data bytes `d[0..7]` hold (R85, R178). -/
def sampleOf (d : List Byte) : RawSample where
  press := raw20 (d.getD 0 0) (d.getD 1 0) (d.getD 2 0)
  temp := raw20 (d.getD 3 0) (d.getD 4 0) (d.getD 5 0)
  hum := raw16 (d.getD 6 0) (d.getD 7 0)

/-- The response data of READ: bits 55:36, 35:16 and 15:0 (R87). -/
def RawSample.toData (r : RawSample) : BitVec 64 := (0 : BitVec 8) ++ r.press ++ r.temp ++ r.hum

end Sys2Proof.Machine
end

