-- ==== Sys2Proof/Config.lean ====
section
/-! DEFINITION. What the spec leaves to the environment: how the bus and the delay capability answer, and the values
that are unspecified. Each is an opaque constant: nothing in Lean can evaluate it, so a claim holds for every value
(spec/93_implementation_defined.md U1 to U4; notes/assumptions/1.md, 3.md, 4.md, 5.md). -/

namespace Sys2Proof

/-- How BUS answers the transaction in flight (R8, R12). -/
inductive BusReply where
  /-- the transaction completed: for a read with this byte, for a write the byte means nothing -/
  | ok (b : Byte)
  /-- the transport signals a failure with this token -/
  | fail (f : Token)
  /-- no answer yet: the sequencer stays blocked on the transaction (R38, R42) -/
  | pending
  deriving DecidableEq, Repr, Inhabited

/-- How DELAY answers the delay request in flight; it has no failure outcome (R9, decision D30 of the spec). -/
inductive DelayReply where
  /-- at least the requested time has passed -/
  | elapsed
  /-- not yet: the sequencer stays blocked on the delay (R176, R186) -/
  | pending
  deriving DecidableEq, Repr, Inhabited

/-- The free answer of BUS to the `n`-th draw (93 U1, U2). -/
opaque Config.busReply : Nat → BusReply

/-- The free answer of DELAY to the `n`-th draw (93 U3). -/
opaque Config.delayReply : Nat → DelayReply

/-- The unspecified `dev_addr` a failed INIT leaves (R119). -/
opaque Config.freeDevAddr : Nat → DevAddr

/-- The unspecified number behind each field of DeviceConfig after a failed INIT: draw, then field (R119). -/
opaque Config.freeCode : Nat → Nat → Nat

/-- What a coefficient register without a value would read as, by index (R22: no run reads one). -/
opaque Config.freeCoeff : Nat → Int

end Sys2Proof
end

