-- ==== Sys2Proof/Machine/Calibration.lean ====
section
/-! DEFINITION. The Calibration Store's parser: sign correction, `parse_calibration` and its inverse
`pack_calibration`, the read addresses and the coefficient index map (spec/40_calibration.md R110, R112 to R117, R121;
spec/30_encoding.md R84, R98; spec/10_state.md R22 to R26). -/

namespace Sys2Proof.Machine

/-- `calib_addr(i)` (R110): 0x88 + i for i ≤ 23, 0xA1 for i = 24, 0xE1 + (i - 25) for 25 ≤ i ≤ 31. -/
def calibAddr (i : Nat) : Byte :=
  if i ≤ 23 then BitVec.ofNat 8 (0x88 + i)
  else if i = 24 then 0xA1
  else BitVec.ofNat 8 (0xE1 + (i - 25))

/-- The 18 coefficient registers, each a plain integer once parsed (R22 to R26). -/
structure CalibrationData where
  t0 : Int
  t1 : Int
  t2 : Int
  p0 : Int
  p1 : Int
  p2 : Int
  p3 : Int
  p4 : Int
  p5 : Int
  p6 : Int
  p7 : Int
  p8 : Int
  h0 : Int
  h1 : Int
  h2 : Int
  h3 : Int
  h4 : Int
  h5 : Int
  deriving DecidableEq, Repr

/-- `signcorr_N` (R114): if the sign bit is set, `-(v ^ mask) - 1` with mask all ones, else `v`. -/
def signCorr (n : Nat) (v : BitVec n) : Int :=
  if v.msb then -((v ^^^ BitVec.allOnes n).toNat : Int) - 1 else (v.toNat : Int)

/-- A little-endian 16-bit word: the byte read first is the less significant (R53, R112). -/
def word16 (low high : Byte) : BitVec 16 := low.setWidth 16 ||| (high.setWidth 16 <<< 8)

/-- The packed coefficient 3: `(byte_a << 4) | (byte_b & 0x0F)` (R113). -/
def packedH3 (byteA byteB : Byte) : BitVec 12 :=
  (byteA.setWidth 12 <<< 4) ||| (byteB &&& 0x0F).setWidth 12

/-- The packed coefficient 4: `(byte_c << 4) | ((byte_b >> 4) & 0x0F)` (R113). -/
def packedH4 (byteC byteB : Byte) : BitVec 12 :=
  (byteC.setWidth 12 <<< 4) ||| ((byteB >>> 4) &&& 0x0F).setWidth 12

/-- `w(k)` of R112. -/
def calibWord (raw : List Byte) (k : Nat) : BitVec 16 :=
  word16 (raw.getD (2 * k) 0) (raw.getD (2 * k + 1) 0)

/-- `parse_calibration` (R112, R113, R117) of the 32 bytes in read order. -/
def parseCalibration (raw : List Byte) : CalibrationData where
  t0 := ((calibWord raw 0).toNat : Int)
  t1 := signCorr 16 (calibWord raw 1)
  t2 := signCorr 16 (calibWord raw 2)
  p0 := ((calibWord raw 3).toNat : Int)
  p1 := signCorr 16 (calibWord raw 4)
  p2 := signCorr 16 (calibWord raw 5)
  p3 := signCorr 16 (calibWord raw 6)
  p4 := signCorr 16 (calibWord raw 7)
  p5 := signCorr 16 (calibWord raw 8)
  p6 := signCorr 16 (calibWord raw 9)
  p7 := signCorr 16 (calibWord raw 10)
  p8 := signCorr 16 (calibWord raw 11)
  h0 := ((raw.getD 24 0).toNat : Int)
  h1 := signCorr 16 (word16 (raw.getD 25 0) (raw.getD 26 0))
  h2 := ((raw.getD 27 0).toNat : Int)
  h3 := signCorr 12 (packedH3 (raw.getD 28 0) (raw.getD 29 0))
  h4 := signCorr 12 (packedH4 (raw.getD 30 0) (raw.getD 29 0))
  h5 := signCorr 8 (raw.getD 31 0)

/-- The low byte of a 16-bit pattern. -/
def lowByte (w : BitVec 16) : Byte := w.extractLsb' 0 8

/-- The high byte of a 16-bit pattern. -/
def highByte (w : BitVec 16) : Byte := w.extractLsb' 8 8

/-- The two bytes of `pat_16(x)`, low first (R121). -/
def packWord (x : Int) : List Byte := [lowByte (BitVec.ofInt 16 x), highByte (BitVec.ofInt 16 x)]

/-- `pack_calibration` (R121), the inverse of the parser; no command uses it. -/
def packCalibration (c : CalibrationData) : List Byte :=
  packWord c.t0 ++ packWord c.t1 ++ packWord c.t2 ++ packWord c.p0 ++ packWord c.p1 ++ packWord c.p2 ++
    packWord c.p3 ++ packWord c.p4 ++ packWord c.p5 ++ packWord c.p6 ++ packWord c.p7 ++ packWord c.p8 ++
    [BitVec.ofInt 8 c.h0] ++ packWord c.h1 ++
    [BitVec.ofInt 8 c.h2,
     (BitVec.ofInt 12 c.h3).extractLsb' 4 8,
     (BitVec.ofInt 12 c.h4).extractLsb' 0 4 ++ (BitVec.ofInt 12 c.h3).extractLsb' 0 4,
     (BitVec.ofInt 12 c.h4).extractLsb' 4 8,
     BitVec.ofInt 8 c.h5]

/-- The index map of GET_COEFF (R98): 0..2 are T, 3..11 are P, 12..17 are H. -/
def CalibrationData.coeff (c : CalibrationData) (i : Nat) : Int :=
  [c.t0, c.t1, c.t2, c.p0, c.p1, c.p2, c.p3, c.p4, c.p5, c.p6, c.p7, c.p8, c.h0, c.h1, c.h2, c.h3, c.h4, c.h5].getD i 0

/-- `x` is a value of the unsigned type of `n` bits (R11). -/
def isUnsigned (n : Nat) (x : Int) : Bool := decide (0 ≤ x) && decide (x < 2 ^ n)

/-- `x` is a value of the signed type of `n` bits (R11). -/
def isSigned (n : Nat) (x : Int) : Bool := decide (-(2 ^ (n - 1)) ≤ x) && decide (x < 2 ^ (n - 1))

/-- Every coefficient is in the range of its type (R23 to R25). -/
def CalibrationData.inRange (c : CalibrationData) : Bool :=
  isUnsigned 16 c.t0 && isSigned 16 c.t1 && isSigned 16 c.t2 && isUnsigned 16 c.p0 && isSigned 16 c.p1 &&
    isSigned 16 c.p2 && isSigned 16 c.p3 && isSigned 16 c.p4 && isSigned 16 c.p5 && isSigned 16 c.p6 &&
    isSigned 16 c.p7 && isSigned 16 c.p8 && isUnsigned 8 c.h0 && isSigned 16 c.h1 && isUnsigned 8 c.h2 &&
    isSigned 12 c.h3 && isSigned 12 c.h4 && isSigned 8 c.h5

end Sys2Proof.Machine
end

