-- ==== Sys2Proof/Machine/Flags.lean ====
section
/-! DEFINITION. Flags: the block stores none (spec/10_state.md R35). The two flags of the sensor's status register are
bits of the byte a probe has just read (spec/30_encoding.md R83, spec/43_system_probes.md R200, R201). -/

namespace Sys2Proof.Machine

/-- Which status bit a probe asks for. -/
inductive StatusFlag where
  /-- `measuring`, bit 3 -/
  | measuring
  /-- `image-update`, bit 0 -/
  | imUpdate
  deriving DecidableEq, Repr

/-- Status bit 3: a conversion runs (R83, R200). -/
def statusMeasuring (s : Byte) : BitVec 1 := s.extractLsb' 3 1

/-- Status bit 0: the sensor copies NVM to its image registers (R83, R201). -/
def statusImUpdate (s : Byte) : BitVec 1 := s.extractLsb' 0 1

/-- The probed bit of the status byte `s`. -/
def statusBit (f : StatusFlag) (s : Byte) : BitVec 1 :=
  match f with
  | .measuring => statusMeasuring s
  | .imUpdate => statusImUpdate s

end Sys2Proof.Machine
end

