-- ==== Sys2Proof/Machine/Memory.lean ====
section
/-! DEFINITION. The register space behind the bus (spec/20_memory.md R50): one byte per 8-bit register address, held as
what the block has last successfully written there (`last(r)`, spec/41_codec_config.md R158). An unlisted address has no
value: its contents belong to BUS (spec/00_scope.md R7; notes/assumptions/10.md). -/

namespace Sys2Proof.Machine

/-- Addresses strictly rising; an address that is not listed has no value. -/
abbrev Memory := List Host.Cell

/-- What address `a` holds, `none` if nothing was ever successfully written there. -/
def Memory.read : Memory → Nat → Option Byte
  | [], _ => none
  | (a', b) :: m, a => if a = a' then some b else Memory.read m a

/-- A successful one-byte write, keeping the addresses rising. -/
def Memory.write : Memory → Nat → Byte → Memory
  | [], a, b => [(a, b)]
  | (a', b') :: m, a, b =>
    if a < a' then (a, b) :: (a', b') :: m
    else if a = a' then (a, b) :: m
    else (a', b') :: Memory.write m a b

/-- Every listed address is above `lo`, in rising order, and inside the 8-bit space. -/
def Memory.risingFrom : Nat → Memory → Bool
  | _, [] => true
  | lo, (a, _) :: m => decide (lo ≤ a) && decide (a < 256) && Memory.risingFrom (a + 1) m

/-- The canonical form: addresses strictly rising, each in the 8-bit register space (R50). -/
def Memory.wf (m : Memory) : Bool := Memory.risingFrom 0 m

end Sys2Proof.Machine
end

