-- ==== Sys2Proof/Machine/State.lean ====
section
/-! DEFINITION. The state of the block (spec/10_state.md), plain data, and its value after hardware reset (R40, R250).
Beside the block's own state it holds the register space, the observed bus and delay trace, and the inputs of the three
other agents (spec/00_scope.md R6). -/

namespace Sys2Proof.Machine

/-- The lifecycle register (R20). -/
inductive Life where
  | unconstructed
  | ready
  deriving DecidableEq, Repr

/-- The outcome a response reports (R221). -/
inductive Status where
  | ok
  | transportError
  | invalidConfigValue
  | notConstructed
  | alreadyConstructed
  | illegalCommand
  deriving DecidableEq, Repr

/-- The response register (R37). -/
structure Response where
  status : BitVec 4
  data : BitVec 64
  deriving DecidableEq, Repr

/-- A request the sequencer waits on: a bus transaction or a delay (R8, R9, R12). -/
inductive Request where
  /-- `MemRead(a, 1)` -/
  | read (a : Byte)
  /-- `MemWrite(a, 1, b)` -/
  | write (a b : Byte)
  /-- `Delay(us)` -/
  | delay (us : Nat)
  deriving DecidableEq, Repr

/-- An entry of the bus and delay trace (R240; the trace notation of spec/95_test_vectors.md), with the device address
each transaction carries (R61). An entry is made when its request is answered. -/
inductive Event where
  /-- `R a→b` -/
  | read (dev : DevAddr) (a b : Byte)
  /-- `R a→FAIL(f)` -/
  | readFail (dev : DevAddr) (a : Byte) (f : Token)
  /-- `W a←b` -/
  | write (dev : DevAddr) (a b : Byte)
  /-- `W a←b FAIL(f)` -/
  | writeFail (dev : DevAddr) (a b : Byte) (f : Token)
  /-- `Delay(us)` -/
  | delay (us : Nat)
  /-- a request that was in flight when `rst` came (R250, 93 U12) -/
  | abandoned (dev : DevAddr) (r : Request)
  deriving DecidableEq, Repr

/-- What the host does next (R38, R96, R250). -/
inductive HostEvent where
  /-- issue a command word -/
  | cmd (w : CmdWord)
  /-- issue a command word only if the command before it has responded OK: the second command of a pseudo-command (R96) -/
  | cmdIfOk (w : CmdWord)
  /-- assert `rst` -/
  | rst
  deriving DecidableEq, Repr

/-- The other agents: the host's coming inputs, the coming answers of BUS and DELAY, and the counter that indexes the
free values once the listed answers are used up. It is no state of the block (R7). -/
structure Env where
  host : List HostEvent
  busIn : List BusReply
  delayIn : List DelayReply
  draws : Nat
  deriving DecidableEq, Repr

/-- A micro-step of the sequencer: one line, or one transaction with the stores that follow it, of a command's
pseudocode. `phase` is the list of those that remain (R36). -/
inductive Micro where
  /-- `raw_cal[i] <- MemRead(calib_addr(i), 1)` (R111) -/
  | readCal (i : Nat)
  /-- `cal <- parse_calibration(raw_cal)` and the default DeviceConfig (R111, R33) -/
  | parse
  /-- `MemWrite(0xF2, 1, enc_ctrl_hum(cfg))` of INIT (R111) -/
  | pushHum
  /-- `MemWrite(0xF4, 1, enc_ctrl_meas(cfg))` of INIT and SET_OSRS_H (R111, R145) -/
  | pushMeas
  /-- `MemWrite(0xF5, 1, enc_config(cfg))` of INIT (R111) -/
  | pushConfig
  /-- `life <- READY` (R111) -/
  | becomeReady
  /-- the ctrl-hum write of SET_OSRS_H, then `cfg.osrs_h <- arg` (R145) -/
  | setHum (arg : Byte)
  /-- the write of SET_OSRS_T, then `cfg.osrs_t <- arg` (R146) -/
  | setTemp (arg : Byte)
  /-- the write of SET_OSRS_P, then `cfg.osrs_p <- arg` (R147) -/
  | setPress (arg : Byte)
  /-- the write of SET_MODE, then `cfg.mode <- arg` (R171) -/
  | setMode (arg : Byte)
  /-- the write of SET_STANDBY, then `cfg.t_sb <- arg` (R148) -/
  | setStandby (arg : Byte)
  /-- the write of SET_FILTER, then `cfg.filter <- arg` (R149) -/
  | setFilter (arg : Byte)
  /-- `Delay(duration_us(cfg))` of a READ in Forced (R177) -/
  | waitSample
  /-- `d[j] <- MemRead(0xF7 + j, 1)` (R177) -/
  | readData (j : Nat)
  /-- the end of READ: the response, and the auto-revert if the READ began in Forced (R177, R179) -/
  | deliver (forced : Bool)
  /-- read the status register and respond with one of its bits (R200, R201) -/
  | probe (f : StatusFlag)
  /-- read the chip-id register and respond with it (R202) -/
  | chipId
  /-- `MemWrite(0xE0, 1, 0xB6)` (R203) -/
  | softReset
  /-- `Respond(OK, 0)` -/
  | respondOk
  /-- the bare write of a register-format row (R80 to R82, R97; notes/assumptions/11.md) -/
  | regWrite (a b : Byte)
  /-- the bare read of the status row (R83; notes/assumptions/11.md) -/
  | regRead (a : Byte)
  deriving DecidableEq, Repr

/-- Why a step stops. -/
inductive Fault where
  /-- raised by `exec` on a host command while `phase` is not IDLE: "while phase ≠ IDLE the command port accepts nothing"
  (R38; 93 U14: stuck). Safe: the model stops where the block has no step. `step` never raises it. -/
  | portBusy
  deriving DecidableEq, Repr

/-- Why an instruction is refused. -/
inductive Refusal where
  /-- raised by `exec` for an instruction without a meaning; none is left. Safe: no claim is made of it. -/
  | notModelled (mnemonic : String)
  deriving DecidableEq, Repr

/-- The machine's state. -/
structure State where
  /-- `life` (R20) -/
  life : Life
  /-- `dev_addr` (R21) -/
  devAddr : DevAddr
  /-- CalibrationData; `none` is "they hold no value", the state before a successful INIT (R22, R40) -/
  cal : Option CalibrationData
  /-- `raw_cal`: the calibration bytes gathered so far, in read order (R27) -/
  rawCal : List Byte
  /-- DeviceConfig (R28) -/
  cfg : DeviceConfig
  /-- `d`: the data bytes gathered so far by the READ that runs (R34) -/
  data : List Byte
  /-- the remaining micro-steps of the command that runs; `[]` is IDLE (R36) -/
  phase : List Micro
  /-- `resp` (R37) -/
  resp : Response
  /-- the register space as last successfully written (R50, R158), one for all device addresses (notes/assumptions/20.md) -/
  mem : Memory
  /-- the bus and delay trace, oldest first (R240) -/
  trace : List Event
  /-- the other agents (R6) -/
  env : Env
  deriving DecidableEq, Repr

/-- The machine right after hardware reset (R40, R250), with no host command and no answer listed. -/
def State.reset : State where
  life := .unconstructed
  devAddr := 0
  cal := none
  rawCal := []
  cfg := DeviceConfig.defaults
  data := []
  phase := []
  resp := { status := 0, data := 0 }
  mem := []
  trace := []
  env := { host := [], busIn := [], delayIn := [], draws := 0 }

end Sys2Proof.Machine
end

