-- ==== Sys2Proof/Machine/Ops.lean ====
section
/-! DEFINITION. The named operations: drawing an answer of BUS or DELAY, the primitives MemRead, MemWrite, Delay,
Respond and raise (spec/00_scope.md R12), what an error does (spec/60_exceptions.md R220 to R230), hardware reset
(spec/70_reset_and_hazards.md R250), and the sequencer that runs a command's micro-steps in order (R36, R42). -/

namespace Sys2Proof.Machine

/-! ## The answers of the other agents -/

/-- How BUS answers the next transaction: as listed, else a free value (93 U1, U2; notes/assumptions/4.md). -/
def Env.busReply (e : Env) : BusReply :=
  match e.busIn with
  | [] => Config.busReply e.draws
  | r :: _ => r

/-- The environment after that answer. -/
def Env.afterBus (e : Env) : Env :=
  match e.busIn with
  | [] => { e with draws := e.draws + 1 }
  | _ :: rs => { e with busIn := rs }

/-- How DELAY answers the next delay request: as listed, else a free value (93 U3; notes/assumptions/5.md). -/
def Env.delayReply (e : Env) : DelayReply :=
  match e.delayIn with
  | [] => Config.delayReply e.draws
  | r :: _ => r

/-- The environment after that answer. -/
def Env.afterDelay (e : Env) : Env :=
  match e.delayIn with
  | [] => { e with draws := e.draws + 1 }
  | _ :: rs => { e with delayIn := rs }

/-- The environment after the answers to the next `n` transactions. -/
def Env.afterBusN : Nat → Env → Env
  | 0, e => e
  | n + 1, e => Env.afterBusN n e.afterBus

/-- The next transactions all complete, with these bytes in order (for a write the byte means nothing). -/
def Env.answers : Env → List Byte → Prop
  | _, [] => True
  | e, b :: bs => e.busReply = .ok b ∧ Env.answers e.afterBus bs

/-! ## Respond and raise -/

/-- The status codes (R221; decision D17 of the spec). -/
def Status.code : Status → BitVec 4
  | .ok => 0
  | .transportError => 1
  | .invalidConfigValue => 2
  | .notConstructed => 3
  | .alreadyConstructed => 4
  | .illegalCommand => 5

/-- `Respond(status, data)` (R12): writes the response register and returns the sequencer to IDLE. -/
def respond (st : Status) (d : BitVec 64) (s : State) : State :=
  { s with resp := { status := st.code, data := d }, phase := [] }

/-- A code taken from an unspecified number, inside the code set of its field (R119 leaves the value open, R157 bounds
it). -/
def freeConfig (n : Nat) : DeviceConfig where
  osrsH := BitVec.ofNat 3 (Config.freeCode n 0 % 6)
  osrsT := BitVec.ofNat 3 (Config.freeCode n 1 % 6)
  osrsP := BitVec.ofNat 3 (Config.freeCode n 2 % 6)
  mode := match Config.freeCode n 3 % 3 with
    | 0 => modeSleep
    | 1 => modeForced
    | _ => modeNormal
  tSb := BitVec.ofNat 3 (Config.freeCode n 4 % 8)
  filter := BitVec.ofNat 3 (Config.freeCode n 5 % 5)

/-- What a failed INIT leaves: `dev_addr` and `cfg` unspecified, no coefficients, nothing gathered (R119, R228; 93 U4;
notes/assumptions/3.md). -/
def unspecifyInit (s : State) : State :=
  { s with
    devAddr := Config.freeDevAddr s.env.draws
    cal := none
    rawCal := []
    cfg := freeConfig s.env.draws
    env := { s.env with draws := s.env.draws + 1 } }

/-- `raise TransportError(f)` (R222, R228): the command ends with the token as its data; what it stored before stays,
the transient data bytes of a READ are gone (R34, R182), and a failed INIT, the only command that issues a transaction
in UNCONSTRUCTED, leaves its registers unspecified. -/
def transportError (f : Token) (s : State) : State :=
  match s.life with
  | .ready => respond .transportError (f.setWidth 64) { s with data := [] }
  | .unconstructed => respond .transportError (f.setWidth 64) (unspecifyInit { s with data := [] })

/-- `raise InvalidConfigValue(arg)` (R223). -/
def invalidConfigValue (arg : Byte) (s : State) : State := respond .invalidConfigValue (arg.setWidth 64) s

/-- `raise NotConstructed(0)` (R224). -/
def notConstructed (s : State) : State := respond .notConstructed 0 s

/-- `raise AlreadyConstructed(0)` (R225). -/
def alreadyConstructed (s : State) : State := respond .alreadyConstructed 0 s

/-- `raise IllegalCommand(word)`, at decode (R226, R92). -/
def illegalCommand (w : CmdWord) (s : State) : State := respond .illegalCommand (w.setWidth 64) s

/-! ## Requests -/

/-- What becomes of a request. -/
inductive Asked where
  /-- answered; for a read, with this byte -/
  | done (b : Byte) (s : State)
  /-- the transport failed with this token -/
  | failed (f : Token) (s : State)
  /-- not answered yet -/
  | blocked (s : State)

/-- One request: MemRead, MemWrite or Delay (R12). Every transaction carries `dev_addr` (R61). -/
def ask (r : Request) (s : State) : Asked :=
  match r with
  | .read a =>
    match s.env.busReply with
    | .ok b => .done b { s with trace := s.trace ++ [.read s.devAddr a b], env := s.env.afterBus }
    | .fail f => .failed f { s with trace := s.trace ++ [.readFail s.devAddr a f], env := s.env.afterBus }
    | .pending => .blocked { s with env := s.env.afterBus }
  | .write a b =>
    match s.env.busReply with
    | .ok _ =>
      .done 0 { s with
        mem := s.mem.write a.toNat b
        trace := s.trace ++ [.write s.devAddr a b]
        env := s.env.afterBus }
    | .fail f => .failed f { s with trace := s.trace ++ [.writeFail s.devAddr a b f], env := s.env.afterBus }
    | .pending => .blocked { s with env := s.env.afterBus }
  | .delay us =>
    match s.env.delayReply with
    | .elapsed => .done 0 { s with trace := s.trace ++ [.delay us], env := s.env.afterDelay }
    | .pending => .blocked { s with env := s.env.afterDelay }

/-! ## The micro-steps -/

/-- The request a micro-step makes first, if it makes one. -/
def Micro.request (m : Micro) (s : State) : Option Request :=
  match m with
  | .readCal i => some (.read (calibAddr i))
  | .pushHum => some (.write addrCtrlHum s.cfg.ctrlHum)
  | .pushMeas => some (.write addrCtrlMeas s.cfg.ctrlMeas)
  | .pushConfig => some (.write addrConfig s.cfg.config)
  | .setHum arg => some (.write addrCtrlHum (encCtrlHum arg))
  | .setTemp arg =>
    some (.write addrCtrlMeas (encCtrlMeas arg (s.cfg.osrsP.setWidth 8) (s.cfg.mode.setWidth 8)))
  | .setPress arg =>
    some (.write addrCtrlMeas (encCtrlMeas (s.cfg.osrsT.setWidth 8) arg (s.cfg.mode.setWidth 8)))
  | .setMode arg =>
    some (.write addrCtrlMeas (encCtrlMeas (s.cfg.osrsT.setWidth 8) (s.cfg.osrsP.setWidth 8) arg))
  | .setStandby arg => some (.write addrConfig (encConfig arg (s.cfg.filter.setWidth 8)))
  | .setFilter arg => some (.write addrConfig (encConfig (s.cfg.tSb.setWidth 8) arg))
  | .waitSample => some (.delay s.cfg.durationUs)
  | .readData j => some (.read (addrData + BitVec.ofNat 8 j))
  | .probe _ => some (.read addrStatus)
  | .chipId => some (.read addrChipId)
  | .softReset => some (.write addrReset softResetMagic)
  | .regWrite a b => some (.write a b)
  | .regRead a => some (.read a)
  | .parse | .becomeReady | .deliver _ | .respondOk => none

/-- What a micro-step stores once its request is answered; `b` is the byte a read returned. -/
def Micro.complete (m : Micro) (b : Byte) (s : State) : State :=
  match m with
  | .readCal _ => { s with rawCal := s.rawCal ++ [b] }
  | .parse => { s with cal := some (parseCalibration s.rawCal), cfg := DeviceConfig.defaults }
  | .pushHum | .pushMeas | .pushConfig => s
  | .becomeReady => { s with life := .ready }
  | .setHum arg => { s with cfg := { s.cfg with osrsH := argCode3 arg } }
  | .setTemp arg => { s with cfg := { s.cfg with osrsT := argCode3 arg } }
  | .setPress arg => { s with cfg := { s.cfg with osrsP := argCode3 arg } }
  | .setMode arg => { s with cfg := { s.cfg with mode := argCode2 arg } }
  | .setStandby arg => { s with cfg := { s.cfg with tSb := argCode3 arg } }
  | .setFilter arg => { s with cfg := { s.cfg with filter := argCode3 arg } }
  | .waitSample => s
  | .readData _ => { s with data := s.data ++ [b] }
  | .deliver forced =>
    respond .ok (sampleOf s.data).toData
      { s with cfg := if forced then { s.cfg with mode := modeSleep } else s.cfg, data := [] }
  | .probe f => respond .ok ((statusBit f b).setWidth 64) s
  | .chipId => respond .ok (b.setWidth 64) s
  | .softReset => s
  | .respondOk => respond .ok 0 s
  | .regWrite _ _ | .regRead _ => s

/-- The sequencer (R36, R42): micro-steps in the order written, each begun after the one before it is complete, until
the list ends, a transaction fails, or an answer is still to come. In the last case the rest of the list, the micro-step
in flight first, is the new `phase`. -/
def run : List Micro → State → State
  | [], s => { s with phase := [] }
  | m :: ms, s =>
    match m.request s with
    | none => run ms (m.complete 0 s)
    | some r =>
      match ask r s with
      | .done b s' => run ms (m.complete b s')
      | .failed f s' => transportError f s'
      | .blocked s' => { s' with phase := m :: ms }

/-! ## Acceptance of a command -/

/-- A command is accepted only when the block is idle (R38; notes/assumptions/14.md). -/
def whenIdle (s : State) (t : State) : Host.Outcome State Fault Refusal :=
  match s.phase with
  | [] => .next t
  | _ :: _ => .fault .portBusy

/-- The lifecycle check of every command but INIT (R224). -/
def whenReady (s : State) (t : State) : State :=
  match s.life with
  | .ready => t
  | .unconstructed => notConstructed s

/-- The argument check (R223): the rejected argument is the response's data. -/
def whenLegal (legal : Bool) (arg : Byte) (s : State) (t : State) : State :=
  if legal then t else invalidConfigValue arg s

/-- Goes on with the command that runs (R36). -/
def resume (s : State) : State := run s.phase s

/-! ## Hardware reset -/

/-- The trace entry of the request that was in flight when `rst` came, if there was one (R250; 93 U12). -/
def abandonedEvents (s : State) : List Event :=
  match s.phase with
  | [] => []
  | m :: _ =>
    match m.request s with
    | none => []
    | some r => [.abandoned s.devAddr r]

/-- `rst` (R250): the block is as after reset; no response, no bus transaction; the sensor and the other agents are
untouched. -/
def hardReset (s : State) : State :=
  { State.reset with mem := s.mem, trace := s.trace ++ abandonedEvents s, env := s.env }

end Sys2Proof.Machine
end

