-- ==== Sys2Proof/Machine/Construction.lean ====
section
/-! DEFINITION. INIT and GET_COEFF (spec/40_calibration.md R111, R118 to R120, R122). -/

namespace Sys2Proof.Machine

/-- The 32 calibration reads in order (R110). -/
def calibReads : List Micro := (List.range 32).map Micro.readCal

/-- What INIT does after its reads: the parse, the three writes in order, READY, the response (R111, R253). -/
def initTail : List Micro := [.parse, .pushHum, .pushMeas, .pushConfig, .becomeReady, .respondOk]

/-- INIT (R111): AlreadyConstructed before the argument check, `dev_addr` before the first transaction. -/
def execInit (arg : Byte) (s : State) : Host.Outcome State Fault Refusal :=
  whenIdle s <|
    match s.life with
    | .ready => alreadyConstructed s
    | .unconstructed =>
      whenLegal (addressLegal arg) arg s <|
        run (calibReads ++ initTail) { s with devAddr := argDevAddr arg, rawCal := [] }

/-- The coefficient `i`; in a READY state without coefficients, which no run reaches, a free value (R22;
notes/assumptions/1.md). -/
def State.coeff (s : State) (i : Nat) : Int :=
  match s.cal with
  | some c => c.coeff i
  | none => Config.freeCoeff i

/-- A coefficient modulo 2^16, as the response shows it (R87, R120). -/
def coeffData (x : Int) : BitVec 64 := (BitVec.ofInt 16 x).setWidth 64

/-- GET_COEFF (R120). -/
def execGetCoeff (arg : Byte) (s : State) : Host.Outcome State Fault Refusal :=
  whenIdle s <| whenReady s <| whenLegal (coeffIndexLegal arg) arg s <|
    respond .ok (coeffData (s.coeff arg.toNat)) s

/-- The trace of 32 calibration reads that return `raw` (R69, R110). -/
def calibTrace (dev : DevAddr) (raw : List Byte) : List Event :=
  raw.zipIdx.map (fun p => Event.read dev (calibAddr p.2) p.1)

end Sys2Proof.Machine
end

