-- ==== Sys2Proof/Machine/Getters.lean ====
section
/-! DEFINITION. The getters (spec/41_codec_config.md R152 to R156, spec/42_mode_read.md R172): the shadow field, no bus
transaction, no state change but the response. -/

namespace Sys2Proof.Machine

/-- GET_OSRS_H (R152). -/
def execGetOsrsH (s : State) : Host.Outcome State Fault Refusal :=
  whenIdle s <| whenReady s <| respond .ok (s.cfg.osrsH.setWidth 64) s

/-- GET_OSRS_T (R153). -/
def execGetOsrsT (s : State) : Host.Outcome State Fault Refusal :=
  whenIdle s <| whenReady s <| respond .ok (s.cfg.osrsT.setWidth 64) s

/-- GET_OSRS_P (R154). -/
def execGetOsrsP (s : State) : Host.Outcome State Fault Refusal :=
  whenIdle s <| whenReady s <| respond .ok (s.cfg.osrsP.setWidth 64) s

/-- GET_MODE (R172). -/
def execGetMode (s : State) : Host.Outcome State Fault Refusal :=
  whenIdle s <| whenReady s <| respond .ok (s.cfg.mode.setWidth 64) s

/-- GET_STANDBY (R155). -/
def execGetStandby (s : State) : Host.Outcome State Fault Refusal :=
  whenIdle s <| whenReady s <| respond .ok (s.cfg.tSb.setWidth 64) s

/-- GET_FILTER (R156). -/
def execGetFilter (s : State) : Host.Outcome State Fault Refusal :=
  whenIdle s <| whenReady s <| respond .ok (s.cfg.filter.setWidth 64) s

end Sys2Proof.Machine
end

