-- ==== Sys2Proof/Machine/ModeRead.lean ====
section
/-! DEFINITION. The mode state machine: SET_MODE and READ (spec/42_mode_read.md R170 to R186). -/

namespace Sys2Proof.Machine

/-- SET_MODE (R171). -/
def execSetMode (arg : Byte) (s : State) : Host.Outcome State Fault Refusal :=
  whenIdle s <| whenReady s <| whenLegal (modeLegal arg) arg s <| run [.setMode arg, .respondOk] s

/-- The eight data reads in order (R177). -/
def dataReads : List Micro := (List.range 8).map Micro.readData

/-- The micro-steps of a READ; `forced` is the mode sampled at its start (R177, R179). -/
def readSteps (forced : Bool) : List Micro :=
  (if forced then [Micro.waitSample] else []) ++ dataReads ++ [.deliver forced]

/-- READ (R177). -/
def execRead (s : State) : Host.Outcome State Fault Refusal :=
  whenIdle s <| whenReady s <| run (readSteps (s.cfg.mode == modeForced)) { s with data := [] }

/-- The trace of eight data reads that return `d` (R69, R177). -/
def dataTrace (dev : DevAddr) (d : List Byte) : List Event :=
  d.zipIdx.map (fun p => Event.read dev (addrData + BitVec.ofNat 8 p.2) p.1)

end Sys2Proof.Machine
end

