-- ==== Sys2Proof/Machine/Probes.lean ====
section
/-! DEFINITION. Status probes, identity read and soft reset (spec/43_system_probes.md R200 to R204). -/

namespace Sys2Proof.Machine

/-- GET_MEASURING (R200). -/
def execGetMeasuring (s : State) : Host.Outcome State Fault Refusal :=
  whenIdle s <| whenReady s <| run [.probe .measuring] s

/-- GET_IM_UPDATE (R201). -/
def execGetImUpdate (s : State) : Host.Outcome State Fault Refusal :=
  whenIdle s <| whenReady s <| run [.probe .imUpdate] s

/-- READ_CHIP_ID (R202). -/
def execReadChipId (s : State) : Host.Outcome State Fault Refusal :=
  whenIdle s <| whenReady s <| run [.chipId] s

/-- SOFT_RESET (R203): no block state changes. -/
def execSoftReset (s : State) : Host.Outcome State Fault Refusal :=
  whenIdle s <| whenReady s <| run [.softReset, .respondOk] s

end Sys2Proof.Machine
end

