-- ==== Sys2Proof/Machine/Registers.lean ====
section
/-! DEFINITION. The register-format rows (spec/30_encoding.md R80 to R83, R97): each is one register transaction, the
micro-step of the sequencer that carries a byte of that format, run before the micro-steps that remain
(notes/assumptions/11.md). No host command has these words (R92). -/

namespace Sys2Proof.Machine

/-- The byte a row's transaction carries, from the row's fields, by the encoders of the block. -/
def regCtrlHumByte (h : BitVec 3) : Byte := encCtrlHum (h.setWidth 8)

/-- ctrl-meas (R81). -/
def regCtrlMeasByte (t p : BitVec 3) (m : BitVec 2) : Byte :=
  encCtrlMeas (t.setWidth 8) (p.setWidth 8) (m.setWidth 8)

/-- config (R82). -/
def regConfigByte (sb f : BitVec 3) : Byte := encConfig (sb.setWidth 8) (f.setWidth 8)

/-- status (R83): the byte BUS delivers. -/
def regStatusByte (hi : BitVec 4) (m : BitVec 1) (lo : BitVec 2) (i : BitVec 1) : Byte := hi ++ m ++ lo ++ i

/-- BUS answers the next transaction with `b`. -/
def State.offerByte (s : State) (b : Byte) : State :=
  { s with env := { s.env with busIn := .ok b :: s.env.busIn } }

/-- REG_CTRL_HUM (R80): the write of ctrl-hum. -/
def execRegCtrlHum (h : BitVec 3) (s : State) : Host.Outcome State Fault Refusal :=
  .next (run (.regWrite addrCtrlHum (regCtrlHumByte h) :: s.phase) s)

/-- REG_CTRL_MEAS (R81): the write of ctrl-meas. -/
def execRegCtrlMeas (t p : BitVec 3) (m : BitVec 2) (s : State) : Host.Outcome State Fault Refusal :=
  .next (run (.regWrite addrCtrlMeas (regCtrlMeasByte t p m) :: s.phase) s)

/-- REG_CONFIG (R82): the write of config. -/
def execRegConfig (sb f : BitVec 3) (s : State) : Host.Outcome State Fault Refusal :=
  .next (run (.regWrite addrConfig (regConfigByte sb f) :: s.phase) s)

/-- REG_STATUS (R83): the read of status that BUS answers with this byte. -/
def execRegStatus (hi : BitVec 4) (m : BitVec 1) (lo : BitVec 2) (i : BitVec 1) (s : State) :
    Host.Outcome State Fault Refusal :=
  .next (run (.regRead addrStatus :: s.phase) (s.offerByte (regStatusByte hi m lo i)))

/-- REG_RESET (R97): the write of 0xB6 to reset. -/
def execRegReset (s : State) : Host.Outcome State Fault Refusal :=
  .next (run (.regWrite addrReset softResetMagic :: s.phase) s)

end Sys2Proof.Machine
end

