-- ==== Sys2Proof/Machine/Setters.lean ====
section
/-! DEFINITION. The configuration setters (spec/41_codec_config.md R144 to R151): lifecycle check, argument check, the
write, the shadow field once the write has succeeded, the response. -/

namespace Sys2Proof.Machine

/-- SET_OSRS_H (R145): ctrl-hum, then ctrl-meas, in that order. -/
def execSetOsrsH (arg : Byte) (s : State) : Host.Outcome State Fault Refusal :=
  whenIdle s <| whenReady s <| whenLegal (oversamplingLegal arg) arg s <|
    run [.setHum arg, .pushMeas, .respondOk] s

/-- SET_OSRS_T (R146). -/
def execSetOsrsT (arg : Byte) (s : State) : Host.Outcome State Fault Refusal :=
  whenIdle s <| whenReady s <| whenLegal (oversamplingLegal arg) arg s <| run [.setTemp arg, .respondOk] s

/-- SET_OSRS_P (R147). -/
def execSetOsrsP (arg : Byte) (s : State) : Host.Outcome State Fault Refusal :=
  whenIdle s <| whenReady s <| whenLegal (oversamplingLegal arg) arg s <| run [.setPress arg, .respondOk] s

/-- SET_STANDBY (R148). -/
def execSetStandby (arg : Byte) (s : State) : Host.Outcome State Fault Refusal :=
  whenIdle s <| whenReady s <| whenLegal (standbyLegal arg) arg s <| run [.setStandby arg, .respondOk] s

/-- SET_FILTER (R149). -/
def execSetFilter (arg : Byte) (s : State) : Host.Outcome State Fault Refusal :=
  whenIdle s <| whenReady s <| whenLegal (filterLegal arg) arg s <| run [.setFilter arg, .respondOk] s

end Sys2Proof.Machine
end

