-- ==== Sys2Proof/Machine/Dispatch.lean ====
section
/-! DEFINITION. The dispatch: one arm per constructor of Instr. -/

namespace Sys2Proof.Machine

def exec (i : Instr) (s : State) : Host.Outcome State Fault Refusal :=
  match i with
  | .init arg => Sys2Proof.Machine.execInit arg s
  | .setOsrsH arg => Sys2Proof.Machine.execSetOsrsH arg s
  | .setOsrsT arg => Sys2Proof.Machine.execSetOsrsT arg s
  | .setOsrsP arg => Sys2Proof.Machine.execSetOsrsP arg s
  | .setMode arg => Sys2Proof.Machine.execSetMode arg s
  | .setStandby arg => Sys2Proof.Machine.execSetStandby arg s
  | .setFilter arg => Sys2Proof.Machine.execSetFilter arg s
  | .getOsrsH => Sys2Proof.Machine.execGetOsrsH s
  | .getOsrsT => Sys2Proof.Machine.execGetOsrsT s
  | .getOsrsP => Sys2Proof.Machine.execGetOsrsP s
  | .getMode => Sys2Proof.Machine.execGetMode s
  | .getStandby => Sys2Proof.Machine.execGetStandby s
  | .getFilter => Sys2Proof.Machine.execGetFilter s
  | .getCoeff arg => Sys2Proof.Machine.execGetCoeff arg s
  | .read => Sys2Proof.Machine.execRead s
  | .getMeasuring => Sys2Proof.Machine.execGetMeasuring s
  | .getImUpdate => Sys2Proof.Machine.execGetImUpdate s
  | .readChipId => Sys2Proof.Machine.execReadChipId s
  | .softReset => Sys2Proof.Machine.execSoftReset s
  | .regCtrlHum h => Sys2Proof.Machine.execRegCtrlHum h s
  | .regCtrlMeas t p m => Sys2Proof.Machine.execRegCtrlMeas t p m s
  | .regConfig sb f => Sys2Proof.Machine.execRegConfig sb f s
  | .regStatus hi m lo im => Sys2Proof.Machine.execRegStatus hi m lo im s
  | .regReset => Sys2Proof.Machine.execRegReset s

end Sys2Proof.Machine
end

