-- ==== Sys2Proof/Machine/Port.lean ====
section
/-! DEFINITION. The command port: how the next thing to do is fetched (spec/10_state.md R38, R42;
spec/70_reset_and_hazards.md R250, R251), and how an instruction is placed to be fetched next
(notes/assumptions/6.md, 7.md, 11.md). -/

namespace Sys2Proof.Machine

/-- What the machine does next. -/
inductive Fetched where
  /-- `rst` is asserted; the state is the one in which it comes -/
  | reset (s : State)
  /-- a command runs: it goes on, and the port accepts nothing (R38) -/
  | resume
  /-- idle, and the host issues nothing: the block waits (R251) -/
  | waiting
  /-- idle, and the host does not issue the second command of a pseudo-command, since the first has not responded OK
  (R96); with the state after that -/
  | notIssued (s : State)
  /-- a word that is no command (R92), with the state after taking it from the port -/
  | illegal (w : CmdWord) (s : State)
  /-- a command, with the state after taking it from the port -/
  | command (i : Instr) (s : State)

/-- An input that waits for the command before it to respond OK (R96). -/
def HostEvent.needsOk : HostEvent → Bool
  | .cmdIfOk _ => true
  | .cmd _ | .rst => false

/-- The state after the host's first input is taken. -/
def State.takeHost (s : State) : State := { s with env := { s.env with host := s.env.host.tail } }

/-- The state after `rst` is taken. The command that runs ends without a response (R250), so the host does not issue the
second command of a pseudo-command that `rst` cut short (R96; notes/assumptions/6.md). -/
def State.takeReset (s : State) : State :=
  { s with env := { s.env with host := s.env.host.tail.dropWhile HostEvent.needsOk } }

/-- Takes the word `w` from the port and decodes it (R94). -/
def fetchWord (w : CmdWord) (s : State) : Fetched :=
  match decode (.command w) with
  | .ok i => .command i s.takeHost
  | .error _ => .illegal w s.takeHost

/-- What comes next: `rst` at any time (R250), else the running command, else the next command word that the host
issues. -/
def fetch (s : State) : Fetched :=
  match s.env.host, s.phase with
  | .rst :: _, _ => .reset s.takeReset
  | _, _ :: _ => .resume
  | .cmd w :: _, [] => fetchWord w s
  | .cmdIfOk w :: _, [] => if s.resp.status = Status.ok.code then fetchWord w s else .notIssued s.takeHost
  | [], [] => .waiting

/-- The word the host issues to this block now, if it issues one (R38, R96). -/
def State.issued (s : State) : Option CmdWord :=
  match s.phase, s.env.host with
  | [], .cmd w :: _ => some w
  | [], .cmdIfOk w :: _ => if s.resp.status = Status.ok.code then some w else none
  | [], .rst :: _ | [], [] => none
  | _ :: _, _ => none

/-- The host issues `w` next, to an idle block. -/
def placeCommand (w : CmdWord) (s : State) : State :=
  { s with phase := [], env := { s.env with host := .cmd w :: s.env.host } }

/-- The register transaction `c` is what remains to be done, and the host issues no `rst` before it. -/
def placeTransaction (c : Code) (s : State) : State :=
  let s' := { s with env := { s.env with host := s.env.host.dropWhile (fun ev => ev == HostEvent.rst) } }
  match c with
  | .regWrite a b => { s' with phase := [.regWrite a b] }
  | .regRead a b => { s'.offerByte b with phase := [.regRead a] }
  | .command w => placeCommand w s

/-- Places the bits of a table row where `step` fetches next; a width no row has places nothing. -/
def placeTableWord (nbits w : Nat) (s : State) : State :=
  match codeOfTableWord nbits w with
  | some c => placeTransaction c s
  | none => s

end Sys2Proof.Machine
end

