-- ==== Sys2Proof/Machine/Step.lean ====
section
/-! DEFINITION. One step: what the port fetches is done. A step runs a command from its acceptance until it has
responded, or until BUS or DELAY has not answered yet (notes/assumptions/7.md). -/

namespace Sys2Proof.Machine

/-- One step of the machine. -/
def step (s : State) : Host.Outcome State Fault Refusal :=
  match fetch s with
  | .reset s' => .next (hardReset s')
  | .resume => .next (resume s)
  | .waiting => .next s
  | .notIssued s' => .next s'
  | .illegal w s' => .next (illegalCommand w s')
  | .command i s' => exec i s'

/-- The bits of a table row stored where `step` fetches its next instruction: a command word on the command port, a
register byte as the transaction that remains to be done. -/
def State.withFetchWord (s : State) (nbits w : Nat) : State := placeTableWord nbits w s

end Sys2Proof.Machine
end

