-- ==== Sys2Proof/Assembler.lean ====
section
/-! DEFINITION. The assembler's lines (spec/30_encoding.md R95): `MNEMONIC` or `MNEMONIC operand`, `;` starts a comment,
the operand is a number (decimal or 0x hexadecimal) or a name; the encoding of a line is `(op << 8) | operand`. A line is
a list of characters. -/

namespace Sys2Proof

/-- The text before a `;` (R95). -/
def stripComment : List Char → List Char
  | [] => []
  | c :: cs => if c = ';' then [] else c :: stripComment cs

/-- The words of a line, split at blanks and tabs; `acc` is the word being read, reversed. -/
def splitWords : List Char → List Char → List (List Char)
  | acc, [] => if acc.isEmpty then [] else [acc.reverse]
  | acc, c :: cs =>
    if c = ' ' ∨ c = '\t' then
      if acc.isEmpty then splitWords [] cs else acc.reverse :: splitWords [] cs
    else splitWords (c :: acc) cs

/-- A decimal digit. -/
def decDigit (c : Char) : Option Nat :=
  if '0'.toNat ≤ c.toNat ∧ c.toNat ≤ '9'.toNat then some (c.toNat - '0'.toNat) else none

/-- A hexadecimal digit. -/
def hexDigit (c : Char) : Option Nat :=
  match decDigit c with
  | some d => some d
  | none =>
    if 'a'.toNat ≤ c.toNat ∧ c.toNat ≤ 'f'.toNat then some (c.toNat - 'a'.toNat + 10)
    else if 'A'.toNat ≤ c.toNat ∧ c.toNat ≤ 'F'.toNat then some (c.toNat - 'A'.toNat + 10)
    else none

/-- Digits in base `base`, most significant first. -/
def digitsFrom (digit : Char → Option Nat) (base : Nat) : Nat → List Char → Option Nat
  | n, [] => some n
  | n, c :: cs =>
    match digit c with
    | some d => digitsFrom digit base (n * base + d) cs
    | none => none

/-- A number: decimal, or hexadecimal after `0x`. -/
def parseNumber : List Char → Option Nat
  | [] => none
  | ['0', 'x'] => none
  | '0' :: 'x' :: cs => digitsFrom hexDigit 16 0 cs
  | cs => digitsFrom decDigit 10 0 cs

/-- A command of the assembler: its `op`, the names of its operand values by index, and whether it takes an operand. -/
structure AsmRow where
  mnemonic : List Char
  op : Nat
  names : List (List Char × Nat)
  takesOperand : Bool

/-- Names numbered from 0. -/
def numbered (names : List String) : List (List Char × Nat) := (names.map String.toList).zipIdx

/-- The names of the oversampling codes (R95). -/
def oversamplingNames : List (List Char × Nat) := numbered ["skip", "x1", "x2", "x4", "x8", "x16"]

/-- The names of the mode codes (R95). -/
def modeNames : List (List Char × Nat) := [("sleep".toList, 0), ("forced".toList, 1), ("normal".toList, 3)]

/-- The names of the standby codes (R95). -/
def standbyNames : List (List Char × Nat) :=
  numbered ["sb0_5", "sb62_5", "sb125", "sb250", "sb500", "sb1000", "sb10", "sb20"]

/-- The names of the filter codes (R95). -/
def filterNames : List (List Char × Nat) := numbered ["off", "f2", "f4", "f8", "f16"]

/-- The names of the coefficients (R95). -/
def coeffNames : List (List Char × Nat) :=
  numbered ["T0", "T1", "T2", "P0", "P1", "P2", "P3", "P4", "P5", "P6", "P7", "P8", "H0", "H1", "H2", "H3", "H4", "H5"]

/-- A command with an operand. -/
def rowWith (mnemonic : String) (op : Nat) (names : List (List Char × Nat)) : AsmRow :=
  ⟨mnemonic.toList, op, names, true⟩

/-- A command without one. -/
def rowBare (mnemonic : String) (op : Nat) : AsmRow := ⟨mnemonic.toList, op, [], false⟩

/-- The 19 commands (R86, R95). -/
def asmRows : List AsmRow :=
  [rowWith "INIT" 0x01 [], rowWith "SET_OSRS_H" 0x10 oversamplingNames, rowWith "SET_OSRS_T" 0x11 oversamplingNames,
   rowWith "SET_OSRS_P" 0x12 oversamplingNames, rowWith "SET_MODE" 0x13 modeNames,
   rowWith "SET_STANDBY" 0x14 standbyNames, rowWith "SET_FILTER" 0x15 filterNames, rowWith "GET_COEFF" 0x28 coeffNames] ++
  [rowBare "GET_OSRS_H" 0x20, rowBare "GET_OSRS_T" 0x21, rowBare "GET_OSRS_P" 0x22, rowBare "GET_MODE" 0x23,
   rowBare "GET_STANDBY" 0x24, rowBare "GET_FILTER" 0x25, rowBare "READ" 0x30, rowBare "GET_MEASURING" 0x40,
   rowBare "GET_IM_UPDATE" 0x41, rowBare "READ_CHIP_ID" 0x42, rowBare "SOFT_RESET" 0x50]

/-- An operand: one of the command's names, else a number that fits a byte. -/
def asmOperand (row : AsmRow) (w : List Char) : Option Nat :=
  match row.names.lookup w with
  | some n => some n
  | none =>
    match parseNumber w with
    | some n => if n < 256 then some n else none
    | none => none

/-- `(op << 8) | operand` (R95). -/
def asmWord (op operand : Nat) : CmdWord := BitVec.ofNat 16 ((op <<< 8) ||| operand)

/-- The words of one command line, already split: `INIT` alone is `INIT 0x76`, and MEASURE is its two commands (R95,
R96). -/
def assembleWords : List (List Char) → Option (List CmdWord)
  | [] => some []
  | [m] =>
    if m = "INIT".toList then some [asmWord 0x01 0x76]
    else if m = "MEASURE".toList then some [asmWord 0x13 1, asmWord 0x30 0]
    else
      match asmRows.find? (fun r => r.mnemonic == m) with
      | some r => if r.takesOperand then none else some [asmWord r.op 0]
      | none => none
  | [m, w] =>
    match asmRows.find? (fun r => r.mnemonic == m) with
    | some r => if r.takesOperand then (asmOperand r w).map (fun n => [asmWord r.op n]) else none
    | none => none
  | _ :: _ :: _ :: _ => none

/-- The command words of a line (R95); a blank or comment line has none. -/
def assembleLine (line : List Char) : Option (List CmdWord) := assembleWords (splitWords [] (stripComment line))

end Sys2Proof
end

