-- ==== Sys2Proof/Machine/Pseudo.lean ====
section
/-! DEFINITION. The pseudo-command MEASURE (spec/30_encoding.md R96): `SET_MODE forced`, then `READ`, which the host issues
only if the first responds OK, whenever that response comes. -/

namespace Sys2Proof.Machine

/-- The two commands MEASURE expands to. -/
def measureExpansion : List Instr := [.setMode 1, .read]

/-- What the host does with the words of one assembled line: it issues the first, and each later one only if the one
before it responds OK (R96). -/
def lineInputs : List CmdWord → List HostEvent
  | [] => []
  | w :: ws => .cmd w :: ws.map .cmdIfOk

/-- The host's inputs for a line of the assembler (R95, R96). -/
def assembleInputs (line : List Char) : Option (List HostEvent) := (assembleLine line).map lineInputs

/-- The host's inputs for MEASURE. -/
def measureInputs : List HostEvent := lineInputs [commandWord 0x13 1, commandWord 0x30 0]

/-- The host issues MEASURE next, to an idle block. -/
def placeMeasure (s : State) : State :=
  { s with phase := [], env := { s.env with host := measureInputs ++ s.env.host } }

/-- The first step of MEASURE: SET_MODE forced runs, and the READ is what the host issues next if the response is OK,
also when that response comes late. -/
def execMeasure (s : State) : Host.Outcome State Fault Refusal :=
  execSetMode 1 { s with env := { s.env with host := .cmdIfOk (commandWord 0x30 0) :: s.env.host } }

end Sys2Proof.Machine
end

