-- ==== Sys2Proof/Machine/Sensor.lean ====
section
/-! DEFINITION. What the source assumes of the sensor, as a function of the bus trace (spec/20_memory.md R62, R63, R65;
spec/70_reset_and_hazards.md R255 to R259, R262). No micro-step of the block reads it: it is the other side of the bus,
`none` where the spec leaves the sensor's register open (93 U8, U9; notes/assumptions/17.md). -/

namespace Sys2Proof.Machine

/-- The sensor's side of the bus, as far as the spec determines it. -/
structure SensorView where
  /-- the humidity-control register -/
  ctrlHum : Option Byte
  /-- the measurement-control register, as last written: its mode bits say forced also after the sensor has gone back to
  sleep (notes/assumptions/21.md) -/
  ctrlMeas : Option Byte
  /-- the config register -/
  config : Option Byte
  /-- the humidity oversampling in effect: ctrl-hum at the latest ctrl-meas write (R62) -/
  humInEffect : Option Byte
  /-- how many one-shot conversions the block has certainly started (R63) -/
  conversions : Nat
  deriving DecidableEq, Repr

/-- Before any transaction nothing is known (R250: `rst` does not reset the sensor). -/
def SensorView.unknown : SensorView where
  ctrlHum := none
  ctrlMeas := none
  config := none
  humInEffect := none
  conversions := 0

/-- A ctrl-meas byte whose mode field is forced (R81, R63). -/
def startsConversion (b : Byte) : Bool := b.extractLsb' 0 2 == modeForced

/-- A write of `b` to `a` that reached the sensor. -/
def SensorView.written (v : SensorView) (a b : Byte) : SensorView :=
  if a = addrCtrlHum then { v with ctrlHum := some b }
  else if a = addrCtrlMeas then
    { v with
      ctrlMeas := some b
      humInEffect := v.ctrlHum
      conversions := if startsConversion b then v.conversions + 1 else v.conversions }
  else if a = addrConfig then { v with config := some b }
  else if a = addrReset ∧ b = softResetMagic then { SensorView.unknown with conversions := v.conversions }
  else v

/-- A write to `a` of which the block does not know whether it reached the sensor (93 U8, U12). -/
def SensorView.unsure (v : SensorView) (a : Byte) : SensorView :=
  if a = addrCtrlHum then { v with ctrlHum := none }
  else if a = addrCtrlMeas then { v with ctrlMeas := none, humInEffect := none }
  else if a = addrConfig then { v with config := none }
  else if a = addrReset then { SensorView.unknown with conversions := v.conversions }
  else v

/-- What one trace entry does to the view; reads and delays change nothing (R57). DESIGN CHOICE: the device address of an
entry is not looked at, so entries to two addresses, which an INIT after `rst` can name, count for one sensor
(notes/assumptions/20.md). DESIGN CHOICE: the sensor's sleep changes nothing in the view: what was written stays known
across the return to sleep after a forced conversion, which the spec leaves open (spec/60_exceptions.md R237;
notes/assumptions/21.md). -/
def SensorView.after (v : SensorView) : Event → SensorView
  | .write _ a b => v.written a b
  | .writeFail _ a _ _ => v.unsure a
  | .abandoned _ (.write a _) => v.unsure a
  | .read _ _ _ | .readFail _ _ _ | .delay _ | .abandoned _ (.read _) | .abandoned _ (.delay _) => v

/-- The view after a trace. -/
def sensorView (trace : List Event) : SensorView := trace.foldl SensorView.after SensorView.unknown

end Sys2Proof.Machine
end

