-- ==== Sys2Proof/Safety.lean ====
section
/-! DEFINITION. What claims are stated in: the invariant of the block (spec/10_state.md R26, R28; spec/41_codec_config.md
R157, R158), the closed set of bus accesses (spec/20_memory.md R52, R68), and states that differ only where a failed
INIT leaves nothing observable (spec/40_calibration.md R119). -/

namespace Sys2Proof.Machine

/-- The shadow invariant (R158): each control register was last written with what DeviceConfig says; only the mode bits
may still say forced while the shadow is asleep (the auto-revert). -/
def State.shadowOk (s : State) : Bool :=
  s.mem.read addrCtrlHum.toNat == some s.cfg.ctrlHum &&
  s.mem.read addrConfig.toNat == some s.cfg.config &&
  (s.mem.read addrCtrlMeas.toNat == some s.cfg.ctrlMeas ||
    (s.cfg.mode == modeSleep &&
      s.mem.read addrCtrlMeas.toNat == some ({ s.cfg with mode := modeForced } : DeviceConfig).ctrlMeas))

/-- The rest of a READ or a probe, at the transaction or delay in flight: `data` holds the bytes read before it, and the
delivery reverts the mode exactly when the mode is Forced (R177, R179). -/
def readPhaseOk (mode : BitVec 2) (data : List Byte) : List Micro → Bool
  | [.probe _] | [.chipId] => true
  | .waitSample :: ms => mode == modeForced && data.isEmpty && ms == dataReads ++ [.deliver true]
  | .readData j :: ms =>
    decide (j < 8) && data.length == j && ms == dataReads.drop (j + 1) ++ [.deliver (mode == modeForced)]
  | _ => false

/-- The rest of a setter or of SOFT_RESET, at the transaction in flight (R145 to R149, R171, R203). -/
def setPhaseOk : List Micro → Bool
  | [.setHum arg, .pushMeas, .respondOk] => oversamplingLegal arg
  | [.setTemp arg, .respondOk] | [.setPress arg, .respondOk] => oversamplingLegal arg
  | [.setMode arg, .respondOk] => modeLegal arg
  | [.setStandby arg, .respondOk] => standbyLegal arg
  | [.setFilter arg, .respondOk] => filterLegal arg
  | [.pushMeas, .respondOk] | [.softReset, .respondOk] => true
  | _ => false

/-- What may remain to be done in READY: nothing, or the rest of a command as its pseudocode leaves it. -/
def State.readyPhaseOk (s : State) : Bool :=
  s.phase.isEmpty || readPhaseOk s.cfg.mode s.data s.phase || setPhaseOk s.phase

/-- What may remain to be done in UNCONSTRUCTED: nothing, or the rest of an INIT, which has then done what comes before
it (R111). -/
def State.initPhaseOk (s : State) : Bool :=
  match s.phase with
  | [] => true
  | .readCal _ :: _ =>
    decide (s.rawCal.length < 32) && s.phase == calibReads.drop s.rawCal.length ++ initTail
  | .pushHum :: ms => ms == initTail.drop 2 && s.cfg == DeviceConfig.defaults && s.cal.isSome
  | .pushMeas :: ms =>
    ms == initTail.drop 3 && s.cfg == DeviceConfig.defaults && s.cal.isSome &&
      s.mem.read addrCtrlHum.toNat == some s.cfg.ctrlHum
  | .pushConfig :: ms =>
    ms == initTail.drop 4 && s.cfg == DeviceConfig.defaults && s.cal.isSome &&
      s.mem.read addrCtrlHum.toNat == some s.cfg.ctrlHum &&
      s.mem.read addrCtrlMeas.toNat == some s.cfg.ctrlMeas
  | _ => false

/-- What holds in each lifecycle state. -/
def State.lifeOk (s : State) : Bool :=
  match s.life with
  | .ready => s.cal.isSome && s.shadowOk && s.readyPhaseOk
  | .unconstructed => s.initPhaseOk

/-- The invariant: the register space is in canonical form, every shadow field is in its code set, every coefficient in
the range of its type, the status is one the block produces (R221), and the lifecycle's own part. -/
def State.inv (s : State) : Bool :=
  s.mem.wf && s.cfg.legal && s.cal.all CalibrationData.inRange && decide (s.resp.status.toNat ≤ 5) && s.lifeOk

/-- The addresses the block reads: calibration blocks, chip-id, status, data block (R52, R68). -/
def readableAddr (a : Byte) : Bool :=
  (decide (0x88 ≤ a.toNat) && decide (a.toNat ≤ 0x9F)) || a == 0xA1 ||
    (decide (0xE1 ≤ a.toNat) && decide (a.toNat ≤ 0xE7)) || a == 0xD0 || a == 0xF3 ||
    (decide (0xF7 ≤ a.toNat) && decide (a.toNat ≤ 0xFE))

/-- The addresses the block writes: reset, ctrl-hum, ctrl-meas, config (R52, R68). -/
def writableAddr (a : Byte) : Bool := a == 0xE0 || a == 0xF2 || a == 0xF4 || a == 0xF5

/-- What the block may write to a register: the ranges of R157, and only 0xB6 to reset (R97). -/
def writableByte (a b : Byte) : Bool :=
  if a = 0xE0 then b == 0xB6
  else if a = 0xF2 then decide (b.toNat ≤ 5)
  else if a = 0xF4 then
    decide ((b.extractLsb' 5 3).toNat ≤ 5) && decide ((b.extractLsb' 2 3).toNat ≤ 5) && b.extractLsb' 0 2 != 2
  else decide ((b.extractLsb' 2 3).toNat ≤ 4) && b.extractLsb' 0 2 == 0

/-- A request the block may make (R52, R68, R157). -/
def Request.allowed : Request → Bool
  | .read a => readableAddr a
  | .write a b => writableAddr a && writableByte a b
  | .delay us => decide (2400 ≤ us) && decide (us ≤ 36900)

/-- The request a trace entry reports. -/
def Event.request : Event → Request
  | .read _ a _ | .readFail _ a _ => .read a
  | .write _ a b | .writeFail _ a b _ => .write a b
  | .delay us => .delay us
  | .abandoned _ r => r

/-- The device address a trace entry carries, if it is a bus transaction (R61). -/
def Event.dev : Event → Option DevAddr
  | .read d _ _ | .readFail d _ _ | .write d _ _ | .writeFail d _ _ _ => some d
  | .abandoned d (.read _) | .abandoned d (.write _ _) => some d
  | .delay _ | .abandoned _ (.delay _) => none

/-- Every entry of the trace is one the block may produce. -/
def State.traceOk (s : State) : Bool := s.trace.all (fun ev => ev.request.allowed)

/-- What a request is to: an address in a direction, or the delay. -/
inductive Access where
  | read (a : Byte)
  | write (a : Byte)
  | delay
  deriving DecidableEq, Repr

/-- The access a request makes. -/
def Request.access : Request → Access
  | .read a => .read a
  | .write a _ => .write a
  | .delay _ => .delay

/-- The accesses of an instruction in order (R69), `forced` being the mode at a READ's start. -/
def accesses (forced : Bool) : Instr → List Access
  | .init _ => (List.range 32).map (fun k => .read (calibAddr k)) ++
      [.write addrCtrlHum, .write addrCtrlMeas, .write addrConfig]
  | .setOsrsH _ => [.write addrCtrlHum, .write addrCtrlMeas]
  | .setOsrsT _ | .setOsrsP _ | .setMode _ | .regCtrlMeas _ _ _ => [.write addrCtrlMeas]
  | .setStandby _ | .setFilter _ | .regConfig _ _ => [.write addrConfig]
  | .read => (if forced then [.delay] else []) ++ (List.range 8).map (fun k => .read (addrData + BitVec.ofNat 8 k))
  | .getMeasuring | .getImUpdate | .regStatus _ _ _ _ => [.read addrStatus]
  | .readChipId => [.read addrChipId]
  | .softReset | .regReset => [.write addrReset]
  | .regCtrlHum _ => [.write addrCtrlHum]
  | .getOsrsH | .getOsrsT | .getOsrsP | .getMode | .getStandby | .getFilter | .getCoeff _ => []

/-- The registers an instruction stores to (R69): the addresses its writes carry. -/
def storedAddrs : Instr → List Byte
  | .init _ => [addrCtrlHum, addrCtrlMeas, addrConfig]
  | .setOsrsH _ => [addrCtrlHum, addrCtrlMeas]
  | .setOsrsT _ | .setOsrsP _ | .setMode _ => [addrCtrlMeas]
  | .setStandby _ | .setFilter _ => [addrConfig]
  | .softReset => [addrReset]
  | .regCtrlHum _ => [addrCtrlHum]
  | .regCtrlMeas _ _ _ => [addrCtrlMeas]
  | .regConfig _ _ => [addrConfig]
  | .regReset => [addrReset]
  | .getOsrsH | .getOsrsT | .getOsrsP | .getMode | .getStandby | .getFilter | .getCoeff _ => []
  | .read | .getMeasuring | .getImUpdate | .readChipId | .regStatus _ _ _ _ => []

/-- What an instruction other than INIT may change of DeviceConfig: `c'` differs from `c` in the named field at most
(R144, R173, R204). -/
def cfgFrame (i : Instr) (c c' : DeviceConfig) : Bool :=
  match i with
  | .setOsrsH _ => c' == { c with osrsH := c'.osrsH }
  | .setOsrsT _ => c' == { c with osrsT := c'.osrsT }
  | .setOsrsP _ => c' == { c with osrsP := c'.osrsP }
  | .setMode _ | .read => c' == { c with mode := c'.mode }
  | .setStandby _ => c' == { c with tSb := c'.tSb }
  | .setFilter _ => c' == { c with filter := c'.filter }
  | .init _ => true
  | .getOsrsH | .getOsrsT | .getOsrsP | .getMode | .getStandby | .getFilter | .getCoeff _ => c' == c
  | .getMeasuring | .getImUpdate | .readChipId | .softReset => c' == c
  | .regCtrlHum _ | .regCtrlMeas _ _ _ | .regConfig _ _ | .regStatus _ _ _ _ | .regReset => c' == c

/-- The shadow invariant without the exception: ctrl-meas was last written with exactly what DeviceConfig says. -/
def State.shadowExact (s : State) : Bool := s.mem.read addrCtrlMeas.toNat == some s.cfg.ctrlMeas

/-- A trace entry of a failed transaction. -/
def Event.failed : Event → Bool
  | .readFail _ _ _ | .writeFail _ _ _ _ => true
  | .read _ _ _ | .write _ _ _ | .delay _ | .abandoned _ _ => false

/-- The host's next input is not `rst`. -/
def State.noReset (s : State) : Bool := s.env.host.head? != some .rst

/-- Two states that differ at most in `dev_addr`, `cal`, `raw_cal` and `cfg`, the registers a failed INIT leaves
unspecified (R119). -/
def sameButInit (s t : State) : Bool :=
  s == { t with devAddr := s.devAddr, cal := s.cal, rawCal := s.rawCal, cfg := s.cfg }

/-- What the host and the bus can see of a state: the response, the trace, the register space, the lifecycle, what
remains to be done, and the other agents. -/
def State.observed (s : State) : Response × List Event × Memory × Life × List Micro × Env :=
  (s.resp, s.trace, s.mem, s.life, s.phase, s.env)

end Sys2Proof.Machine
end

