-- ==== Sys2Proof/WellFormed.lean ====
section
/-! DEFINITION. Which instructions are well formed. Every command word with a legal encoding is (an argument outside its
code set is answered by InvalidConfigValue, R223). A register-format row is well formed when its fields are codes the
block encodes: "Argument values outside a field's enumeration are never encoded into a register" (R93, R157). -/

namespace Sys2Proof

/-- The well-formedness check, one line per constructor with something to check. -/
def Instr.wellFormed : Instr → Bool
  | .regCtrlHum h => Machine.oversamplingLegal (h.setWidth 8)
  | .regCtrlMeas t p m =>
    Machine.oversamplingLegal (t.setWidth 8) && Machine.oversamplingLegal (p.setWidth 8) &&
      Machine.modeLegal (m.setWidth 8)
  | .regConfig sb f => Machine.standbyLegal (sb.setWidth 8) && Machine.filterLegal (f.setWidth 8)
  | .regStatus _ _ _ _ | .regReset => true
  | .init _ | .setOsrsH _ | .setOsrsT _ | .setOsrsP _ | .setMode _ | .setStandby _ | .setFilter _ => true
  | .getOsrsH | .getOsrsT | .getOsrsP | .getMode | .getStandby | .getFilter | .getCoeff _ => true
  | .read | .getMeasuring | .getImUpdate | .readChipId | .softReset => true

end Sys2Proof
end

