-- ==== Sys2Proof/Certificates/Slice0/Obligations.lean ====
section
/-! DEFINITION. What is claimed of the machine, for the provers. Each statement's rules are named in its docstring. -/

open Sys2Proof Sys2Proof.Machine

/-! ## Encoding -/

/-- R86, R94, R80 to R83, R97: decoding an encoded instruction gives it back, with every operand at every value. -/
def Obligations.DecodeEncodeRoundTrip : Prop :=
  ∀ i : Instr, decode (encode i) = .ok i

/-- Each code has one meaning: what decodes is the encoding of what it decodes to. -/
def Obligations.EncodeDecodeRoundTrip : Prop :=
  ∀ (c : Code) (i : Instr), decode c = .ok i → encode i = c

/-- R92: a word is a command iff its `op` is one of R86 and, for a command without argument, `arg` is 0. -/
def Obligations.CommandWordsAreExactlyTheTable : Prop :=
  ∀ w : CmdWord, (∃ i, decode (.command w) = .ok i) ↔
    (opOf w).toNat ∈ [0x01, 0x10, 0x11, 0x12, 0x13, 0x14, 0x15, 0x28] ∨
    ((opOf w).toNat ∈ [0x20, 0x21, 0x22, 0x23, 0x24, 0x25, 0x30, 0x40, 0x41, 0x42, 0x50] ∧ argOf w = 0)

/-- R86, R80, R82, R83: some words written out from the spec decode to what they stand for. -/
def Obligations.WrittenOutWordsDecode : Prop :=
  decode (.command 0x0176) = .ok (.init 0x76) ∧ decode (.command 0x1005) = .ok (.setOsrsH 5) ∧
  decode (.command 0x2300) = .ok .getMode ∧ decode (.command 0x2811) = .ok (.getCoeff 17) ∧
  decode (.command 0x3000) = .ok .read ∧ decode (.command 0x4100) = .ok .getImUpdate ∧
  decode (.command 0x5000) = .ok .softReset ∧ decode (.regWrite 0xF4 0x55) = .ok (.regCtrlMeas 2 5 1) ∧
  decode (.regWrite 0xF5 0xC8) = .ok (.regConfig 6 2) ∧ decode (.regRead 0xF3 0x09) = .ok (.regStatus 0 1 0 1)

/-! ## Step and the command port -/

/-- R38, R94, R96: idle, with a decodable word issued by the host (a plain word, or the second of a pseudo-command when
the response is OK), the step is `exec` of what it decodes to, the word taken from the port. -/
def Obligations.StepRunsTheDecodedCommand : Prop :=
  ∀ (s : State) (w : CmdWord) (rest : List HostEvent) (i : Instr),
    s.phase = [] → s.env.host = .cmd w :: rest ∨ (s.env.host = .cmdIfOk w :: rest ∧ s.resp.status = 0) →
    decode (.command w) = .ok i →
    step s = exec i { s with env := { s.env with host := rest } }

/-- R96: the second command of a pseudo-command is not issued when the first has not responded OK: the step drops it and
changes nothing else. -/
def Obligations.FollowUpIsNotIssuedAfterAnError : Prop :=
  ∀ (s : State) (w : CmdWord) (rest : List HostEvent),
    s.phase = [] → s.env.host = .cmdIfOk w :: rest → s.resp.status ≠ 0 →
    step s = .next { s with env := { s.env with host := rest } }

/-- The model's own placing of register rows (log entries 11 and 12): the step on a placed register transaction is `exec`
of its row. -/
def Obligations.StepRunsThePlacedRegisterRow : Prop :=
  ∀ (s : State) (i : Instr), i.isCommand = false → s.phase = [] → s.noReset = true →
    step (placeTransaction (encode i) s) = exec i s

/-- R226, R92: a word that is no command answers IllegalCommand with the word as data, in either lifecycle state, and
changes nothing else. -/
def Obligations.IllegalWordAnswersIllegalCommand : Prop :=
  ∀ (s : State) (w : CmdWord) (rest : List HostEvent) (e : DecodeError),
    s.phase = [] → s.env.host = .cmd w :: rest ∨ (s.env.host = .cmdIfOk w :: rest ∧ s.resp.status = 0) →
    decode (.command w) = .error e →
    step s = .next { s with resp := ⟨5, w.setWidth 64⟩, env := { s.env with host := rest } }

/-- R38: while a command runs the port accepts nothing; the step goes on with the command and takes no host input. -/
def Obligations.BusyPortAcceptsNothing : Prop :=
  ∀ (s : State), s.phase ≠ [] → s.noReset = true →
    step s = .next (run s.phase s) ∧ (run s.phase s).env.host = s.env.host

/-- R38 (93 U14: stuck; log entry 14): a command offered to `exec` while the block is busy is not accepted. -/
def Obligations.CommandWhileBusyStops : Prop :=
  ∀ (s : State) (i : Instr), i.isCommand = true → s.phase ≠ [] → exec i s = .fault .portBusy

/-- R251: after reset, and whenever idle with nothing offered, the block waits. -/
def Obligations.IdleBlockWaits : Prop :=
  ∀ (s : State), s.phase = [] → s.env.host = [] → step s = .next s

/-- R250: `rst` is taken at any time, also in mid-command; life, phase, response, DeviceConfig and coefficients are those
of R40, the register space and the other agents are untouched, and the trace gains exactly the request in flight, marked
abandoned, if there is one (log entry 8). The host does not issue what waits for a response that does not come (R96). -/
def Obligations.HardResetAtAnyTime : Prop :=
  ∀ (s : State) (rest : List HostEvent), s.env.host = .rst :: rest →
    ∃ t, step s = .next t ∧ t.life = .unconstructed ∧ t.phase = [] ∧ t.resp = ⟨0, 0⟩ ∧
      t.cfg = ⟨1, 1, 1, 0, 5, 0⟩ ∧ t.cal = none ∧ t.mem = s.mem ∧
      t.env = { s.env with host := rest.dropWhile HostEvent.needsOk } ∧
      t.trace = s.trace ++ abandonedEvents s ∧
      (s.phase = [] → abandonedEvents s = []) ∧
      (∀ m ms, s.phase = m :: ms →
        (∀ r, m.request s = some r → abandonedEvents s = [.abandoned s.devAddr r]) ∧
        (m.request s = none → abandonedEvents s = []))

/-- R40, R33: the reset values the spec gives. -/
def Obligations.ResetValues : Prop :=
  State.reset.life = .unconstructed ∧ State.reset.cal = none ∧ State.reset.phase = [] ∧
  State.reset.cfg = ⟨1, 1, 1, 0, 5, 0⟩ ∧ State.reset.resp = ⟨0, 0⟩

/-! ## The checks before a command's work -/

/-- R224: in UNCONSTRUCTED every command but INIT answers NotConstructed and changes nothing but the response. -/
def Obligations.NotConstructedBeforeInit : Prop :=
  ∀ (s : State) (i : Instr), i.isCommand = true → (∀ arg, i ≠ .init arg) →
    s.phase = [] → s.life = .unconstructed → exec i s = .next { s with resp := ⟨3, 0⟩ }

/-- R225: INIT in READY answers AlreadyConstructed, whatever its argument, and changes nothing but the response. -/
def Obligations.SecondInitAnswersAlreadyConstructed : Prop :=
  ∀ (s : State) (arg : Byte), s.phase = [] → s.life = .ready → exec (.init arg) s = .next { s with resp := ⟨4, 0⟩ }

/-- R223: an argument outside its set answers InvalidConfigValue with the argument as data, and changes nothing but the
response. -/
def Obligations.RejectedArgumentsChangeNothing : Prop :=
  ∀ (s : State) (arg : Byte), s.phase = [] →
    (s.life = .unconstructed → 128 ≤ arg.toNat →
      exec (.init arg) s = .next { s with resp := ⟨2, arg.setWidth 64⟩ }) ∧
    (s.life = .ready → 5 < arg.toNat →
      exec (.setOsrsH arg) s = .next { s with resp := ⟨2, arg.setWidth 64⟩ } ∧
      exec (.setOsrsT arg) s = .next { s with resp := ⟨2, arg.setWidth 64⟩ } ∧
      exec (.setOsrsP arg) s = .next { s with resp := ⟨2, arg.setWidth 64⟩ }) ∧
    (s.life = .ready → arg.toNat ≠ 0 → arg.toNat ≠ 1 → arg.toNat ≠ 3 →
      exec (.setMode arg) s = .next { s with resp := ⟨2, arg.setWidth 64⟩ }) ∧
    (s.life = .ready → 7 < arg.toNat → exec (.setStandby arg) s = .next { s with resp := ⟨2, arg.setWidth 64⟩ }) ∧
    (s.life = .ready → 4 < arg.toNat → exec (.setFilter arg) s = .next { s with resp := ⟨2, arg.setWidth 64⟩ }) ∧
    (s.life = .ready → 17 < arg.toNat → exec (.getCoeff arg) s = .next { s with resp := ⟨2, arg.setWidth 64⟩ })

/-! ## INIT, the parser, GET_COEFF -/

/-- R111, R110, R122: INIT whose 35 transactions complete. The 32 reads go to the calibration addresses in order, the
coefficients are the parse of the 32 bytes in read order, the three control registers are then written 0x01, 0x24, 0xA0
in that order, and the block is READY. -/
def Obligations.InitConstructs : Prop :=
  ∀ (s : State) (arg w1 w2 w3 : Byte) (raw : List Byte),
    s.phase = [] → s.life = .unconstructed → arg.toNat < 128 → raw.length = 32 →
    s.env.answers (raw ++ [w1, w2, w3]) →
    exec (.init arg) s = .next { s with
      life := .ready
      devAddr := arg.extractLsb' 0 7
      cal := some (parseCalibration raw)
      rawCal := raw
      cfg := ⟨1, 1, 1, 0, 5, 0⟩
      resp := ⟨0, 0⟩
      mem := ((s.mem.write 0xF2 0x01).write 0xF4 0x24).write 0xF5 0xA0
      trace := s.trace ++ calibTrace (arg.extractLsb' 0 7) raw ++
        [.write (arg.extractLsb' 0 7) 0xF2 0x01, .write (arg.extractLsb' 0 7) 0xF4 0x24,
         .write (arg.extractLsb' 0 7) 0xF5 0xA0]
      env := s.env.afterBusN 35 }

/-- R119, R70, R222: if any of INIT's 35 transactions fails, INIT ends with TransportError and the token after that
transaction, and the block stays UNCONSTRUCTED and idle. -/
def Obligations.FailedInitStaysUnconstructed : Prop :=
  ∀ (s : State) (arg : Byte) (before : List Byte) (f : Token),
    s.phase = [] → s.life = .unconstructed → arg.toNat < 128 → before.length < 35 → s.env.answers before →
    (s.env.afterBusN before.length).busReply = .fail f →
    ∃ t, exec (.init arg) s = .next t ∧ t.life = .unconstructed ∧ t.phase = [] ∧ t.resp = ⟨1, f.setWidth 64⟩ ∧
      t.cal = none ∧ t.trace.length = s.trace.length + before.length + 1 ∧
      (∃ ev ∈ t.trace.getLast?, ev.failed = true)

/-- R110: the 32 read addresses in order, and each read's byte is the next of `raw_cal`. -/
def Obligations.CalibrationReadAddresses : Prop :=
  calibReads.map (fun m => m.request State.reset) =
    ([0x88, 0x89, 0x8A, 0x8B, 0x8C, 0x8D, 0x8E, 0x8F, 0x90, 0x91, 0x92, 0x93, 0x94, 0x95, 0x96, 0x97, 0x98, 0x99,
      0x9A, 0x9B, 0x9C, 0x9D, 0x9E, 0x9F, 0xA1, 0xE1, 0xE2, 0xE3, 0xE4, 0xE5, 0xE6, 0xE7] : List Byte).map
      (fun a => some (Request.read a)) ∧
  ∀ m ∈ calibReads, ∀ (b : Byte) (s : State), m.complete b s = { s with rawCal := s.rawCal ++ [b] }

/-- R112, R113, R84: the parse as arithmetic on the byte values. Which byte feeds which coefficient is decision D5 of the
spec: little-endian words, the shared byte 29, two's complement for
the signed coefficients, the unsigned ones as read. -/
def Obligations.ParserFollowsTheLayout : Prop :=
  ∀ (raw : List Byte) (n : Nat → Int) (signed : Nat → Int → Int),
    (∀ i, n i = ((raw.getD i 0).toNat : Int)) → (∀ k x, signed k x = if x < 2 ^ (k - 1) then x else x - 2 ^ k) →
    parseCalibration raw =
      { t0 := n 0 + 256 * n 1
        t1 := signed 16 (n 2 + 256 * n 3)
        t2 := signed 16 (n 4 + 256 * n 5)
        p0 := n 6 + 256 * n 7
        p1 := signed 16 (n 8 + 256 * n 9)
        p2 := signed 16 (n 10 + 256 * n 11)
        p3 := signed 16 (n 12 + 256 * n 13)
        p4 := signed 16 (n 14 + 256 * n 15)
        p5 := signed 16 (n 16 + 256 * n 17)
        p6 := signed 16 (n 18 + 256 * n 19)
        p7 := signed 16 (n 20 + 256 * n 21)
        p8 := signed 16 (n 22 + 256 * n 23)
        h0 := n 24
        h1 := signed 16 (n 25 + 256 * n 26)
        h2 := n 27
        h3 := signed 12 (16 * n 28 + n 29 % 16)
        h4 := signed 12 (16 * n 30 + n 29 / 16)
        h5 := signed 8 (n 31) }

/-- R115: DOC's sign correction is two's complement, at every width. -/
def Obligations.SignCorrectionIsTwosComplement : Prop :=
  ∀ (n : Nat) (v : BitVec n), signCorr n v = v.toInt

/-- R121: every coefficient set whose components are in range is recovered from its packed image. -/
def Obligations.ParseAfterPack : Prop :=
  ∀ c : CalibrationData, c.inRange = true → parseCalibration (packCalibration c) = c

/-- R121: every 32-byte image is recovered from its coefficients. -/
def Obligations.PackAfterParse : Prop :=
  ∀ raw : List Byte, raw.length = 32 → packCalibration (parseCalibration raw) = raw

/-- R23 to R25, R117: every 32-byte image parses to coefficients in the range of their types. -/
def Obligations.ParsedCoefficientsAreInRange : Prop :=
  ∀ raw : List Byte, raw.length = 32 → (parseCalibration raw).inRange = true

/-- R120, R98: GET_COEFF answers the selected coefficient modulo 2^16 and changes nothing but the response; in
UNCONSTRUCTED it answers NotConstructed, for an index of 18 or more InvalidConfigValue. The index map is that of R98. -/
def Obligations.GetCoeffReadsTheCoefficient : Prop :=
  ∀ (s : State) (arg : Byte), s.phase = [] →
    (s.life = .unconstructed → exec (.getCoeff arg) s = .next { s with resp := ⟨3, 0⟩ }) ∧
    (s.life = .ready → 17 < arg.toNat → exec (.getCoeff arg) s = .next { s with resp := ⟨2, arg.setWidth 64⟩ }) ∧
    (∀ c, s.life = .ready → s.cal = some c → arg.toNat ≤ 17 →
      ∃ x, [c.t0, c.t1, c.t2, c.p0, c.p1, c.p2, c.p3, c.p4, c.p5, c.p6, c.p7, c.p8, c.h0, c.h1, c.h2, c.h3, c.h4,
          c.h5][arg.toNat]? = some x ∧
        exec (.getCoeff arg) s = .next { s with resp := ⟨0, BitVec.ofInt 64 (x % 2 ^ 16)⟩ })

/-! ## The codec -/

/-- R140, R141, R142: ctrl-hum is the code masked to 3 bits; for legal codes the fields of ctrl-meas and config stand
side by side. -/
def Obligations.EncodersPlaceTheFields : Prop :=
  ∀ a b m : Byte,
    (encCtrlHum a).toNat = a.toNat % 8 ∧
    (a.toNat ≤ 5 → b.toNat ≤ 5 → m.toNat ≤ 3 →
      (encCtrlMeas a b m).toNat = 32 * a.toNat + 4 * b.toNat + m.toNat) ∧
    (a.toNat ≤ 7 → b.toNat ≤ 4 → (encConfig a b).toNat = 32 * a.toNat + 4 * b.toNat)

/-- R143: the decoders invert the encoders; the other way for every ctrl-meas byte, and for the ctrl-hum and config bytes
whose reserved bits are 0. -/
def Obligations.DecodersInvertTheEncoders : Prop :=
  (∀ h : BitVec 3, decCtrlHum (encCtrlHum (h.setWidth 8)) = h) ∧
  (∀ (t p : BitVec 3) (m : BitVec 2),
    decCtrlMeas (encCtrlMeas (t.setWidth 8) (p.setWidth 8) (m.setWidth 8)) = (t, p, m)) ∧
  (∀ sb f : BitVec 3, decConfig (encConfig (sb.setWidth 8) (f.setWidth 8)) = (sb, f)) ∧
  (∀ b : Byte, encCtrlMeas ((decCtrlMeas b).1.setWidth 8) ((decCtrlMeas b).2.1.setWidth 8)
    ((decCtrlMeas b).2.2.setWidth 8) = b) ∧
  (∀ b : Byte, b.extractLsb' 3 5 = 0 → encCtrlHum ((decCtrlHum b).setWidth 8) = b) ∧
  (∀ b : Byte, b.extractLsb' 0 2 = 0 → encConfig ((decConfig b).1.setWidth 8) ((decConfig b).2.setWidth 8) = b)

/-! ## The setters -/

/-- R145, whole: SET_OSRS_H. In UNCONSTRUCTED it answers NotConstructed; a code above 5 answers InvalidConfigValue;
otherwise it writes ctrl-hum with the code, stores the code, writes ctrl-meas with the unchanged other fields, and answers
OK. A failing first write leaves the field as it was, a failing second write leaves it updated: that is R151, decision D10 of
the spec. After a failure the transient data bytes of a READ are gone (log entry 3). -/
def Obligations.SetOsrsHWritesBothRegisters : Prop :=
  ∀ (s : State) (arg : Byte), s.phase = [] →
    (s.life = .unconstructed → exec (.setOsrsH arg) s = .next { s with resp := ⟨3, 0⟩ }) ∧
    (s.life = .ready → 5 < arg.toNat → exec (.setOsrsH arg) s = .next { s with resp := ⟨2, arg.setWidth 64⟩ }) ∧
    (s.life = .ready → arg.toNat ≤ 5 →
      (∀ x y, s.env.answers [x, y] → exec (.setOsrsH arg) s = .next { s with
        cfg := { s.cfg with osrsH := arg.setWidth 3 }
        resp := ⟨0, 0⟩
        mem := (s.mem.write 0xF2 arg).write 0xF4 s.cfg.ctrlMeas
        trace := s.trace ++ [.write s.devAddr 0xF2 arg, .write s.devAddr 0xF4 s.cfg.ctrlMeas]
        env := s.env.afterBus.afterBus }) ∧
      (∀ f, s.env.busReply = .fail f → exec (.setOsrsH arg) s = .next { s with
        data := []
        resp := ⟨1, f.setWidth 64⟩
        trace := s.trace ++ [.writeFail s.devAddr 0xF2 arg f]
        env := s.env.afterBus }) ∧
      (∀ x f, s.env.busReply = .ok x → s.env.afterBus.busReply = .fail f → exec (.setOsrsH arg) s = .next { s with
        cfg := { s.cfg with osrsH := arg.setWidth 3 }
        data := []
        resp := ⟨1, f.setWidth 64⟩
        mem := s.mem.write 0xF2 arg
        trace := s.trace ++ [.write s.devAddr 0xF2 arg, .writeFail s.devAddr 0xF4 s.cfg.ctrlMeas f]
        env := s.env.afterBus.afterBus }))

/-- R146: SET_OSRS_T. In UNCONSTRUCTED it answers NotConstructed; a code outside its set answers InvalidConfigValue;
otherwise it makes one write, stores the code once the write has succeeded, and answers OK; if the write fails it answers
TransportError and the field keeps its old value. That the transient data bytes of a READ are empty then is the model's
choice (log entry 3), no clause of the rule. -/
def Obligations.SetOsrsTWritesCtrlMeas : Prop :=
  ∀ (s : State) (arg : Byte), s.phase = [] →
    (s.life = .unconstructed → exec (.setOsrsT arg) s = .next { s with resp := ⟨3, 0⟩ }) ∧
    (s.life = .ready → 5 < arg.toNat → exec (.setOsrsT arg) s = .next { s with resp := ⟨2, arg.setWidth 64⟩ }) ∧
    (s.life = .ready → arg.toNat ≤ 5 →
      ∃ c b, c = { s.cfg with osrsT := arg.setWidth 3 } ∧ b = encCtrlMeas arg (s.cfg.osrsP.setWidth 8) (s.cfg.mode.setWidth 8) ∧ b = c.ctrlMeas ∧
        (∀ x, s.env.busReply = .ok x → exec (.setOsrsT arg) s = .next { s with
          cfg := c
          resp := ⟨0, 0⟩
          mem := s.mem.write 0xF4 b
          trace := s.trace ++ [.write s.devAddr 0xF4 b]
          env := s.env.afterBus }) ∧
        (∀ f, s.env.busReply = .fail f → exec (.setOsrsT arg) s = .next { s with
          data := []
          resp := ⟨1, f.setWidth 64⟩
          trace := s.trace ++ [.writeFail s.devAddr 0xF4 b f]
          env := s.env.afterBus }))

/-- R147: SET_OSRS_P. In UNCONSTRUCTED it answers NotConstructed; a code outside its set answers InvalidConfigValue;
otherwise it makes one write, stores the code once the write has succeeded, and answers OK; if the write fails it answers
TransportError and the field keeps its old value. That the transient data bytes of a READ are empty then is the model's
choice (log entry 3), no clause of the rule. -/
def Obligations.SetOsrsPWritesCtrlMeas : Prop :=
  ∀ (s : State) (arg : Byte), s.phase = [] →
    (s.life = .unconstructed → exec (.setOsrsP arg) s = .next { s with resp := ⟨3, 0⟩ }) ∧
    (s.life = .ready → 5 < arg.toNat → exec (.setOsrsP arg) s = .next { s with resp := ⟨2, arg.setWidth 64⟩ }) ∧
    (s.life = .ready → arg.toNat ≤ 5 →
      ∃ c b, c = { s.cfg with osrsP := arg.setWidth 3 } ∧ b = encCtrlMeas (s.cfg.osrsT.setWidth 8) arg (s.cfg.mode.setWidth 8) ∧ b = c.ctrlMeas ∧
        (∀ x, s.env.busReply = .ok x → exec (.setOsrsP arg) s = .next { s with
          cfg := c
          resp := ⟨0, 0⟩
          mem := s.mem.write 0xF4 b
          trace := s.trace ++ [.write s.devAddr 0xF4 b]
          env := s.env.afterBus }) ∧
        (∀ f, s.env.busReply = .fail f → exec (.setOsrsP arg) s = .next { s with
          data := []
          resp := ⟨1, f.setWidth 64⟩
          trace := s.trace ++ [.writeFail s.devAddr 0xF4 b f]
          env := s.env.afterBus }))

/-- R171: SET_MODE. In UNCONSTRUCTED it answers NotConstructed; a code outside its set answers InvalidConfigValue;
otherwise it makes one write, stores the code once the write has succeeded, and answers OK; if the write fails it answers
TransportError and the field keeps its old value. That the transient data bytes of a READ are empty then is the model's
choice (log entry 3), no clause of the rule. -/
def Obligations.SetModeWritesCtrlMeas : Prop :=
  ∀ (s : State) (arg : Byte), s.phase = [] →
    (s.life = .unconstructed → exec (.setMode arg) s = .next { s with resp := ⟨3, 0⟩ }) ∧
    (s.life = .ready → ¬ (arg = 0 ∨ arg = 1 ∨ arg = 3) → exec (.setMode arg) s = .next { s with resp := ⟨2, arg.setWidth 64⟩ }) ∧
    (s.life = .ready → arg = 0 ∨ arg = 1 ∨ arg = 3 →
      ∃ c b, c = { s.cfg with mode := arg.setWidth 2 } ∧ b = encCtrlMeas (s.cfg.osrsT.setWidth 8) (s.cfg.osrsP.setWidth 8) arg ∧ b = c.ctrlMeas ∧
        (∀ x, s.env.busReply = .ok x → exec (.setMode arg) s = .next { s with
          cfg := c
          resp := ⟨0, 0⟩
          mem := s.mem.write 0xF4 b
          trace := s.trace ++ [.write s.devAddr 0xF4 b]
          env := s.env.afterBus }) ∧
        (∀ f, s.env.busReply = .fail f → exec (.setMode arg) s = .next { s with
          data := []
          resp := ⟨1, f.setWidth 64⟩
          trace := s.trace ++ [.writeFail s.devAddr 0xF4 b f]
          env := s.env.afterBus }))

/-- R148: SET_STANDBY. In UNCONSTRUCTED it answers NotConstructed; a code outside its set answers InvalidConfigValue;
otherwise it makes one write, stores the code once the write has succeeded, and answers OK; if the write fails it answers
TransportError and the field keeps its old value. That the transient data bytes of a READ are empty then is the model's
choice (log entry 3), no clause of the rule. -/
def Obligations.SetStandbyWritesConfig : Prop :=
  ∀ (s : State) (arg : Byte), s.phase = [] →
    (s.life = .unconstructed → exec (.setStandby arg) s = .next { s with resp := ⟨3, 0⟩ }) ∧
    (s.life = .ready → 7 < arg.toNat → exec (.setStandby arg) s = .next { s with resp := ⟨2, arg.setWidth 64⟩ }) ∧
    (s.life = .ready → arg.toNat ≤ 7 →
      ∃ c b, c = { s.cfg with tSb := arg.setWidth 3 } ∧ b = encConfig arg (s.cfg.filter.setWidth 8) ∧ b = c.config ∧
        (∀ x, s.env.busReply = .ok x → exec (.setStandby arg) s = .next { s with
          cfg := c
          resp := ⟨0, 0⟩
          mem := s.mem.write 0xF5 b
          trace := s.trace ++ [.write s.devAddr 0xF5 b]
          env := s.env.afterBus }) ∧
        (∀ f, s.env.busReply = .fail f → exec (.setStandby arg) s = .next { s with
          data := []
          resp := ⟨1, f.setWidth 64⟩
          trace := s.trace ++ [.writeFail s.devAddr 0xF5 b f]
          env := s.env.afterBus }))

/-- R149: SET_FILTER. In UNCONSTRUCTED it answers NotConstructed; a code outside its set answers InvalidConfigValue;
otherwise it makes one write, stores the code once the write has succeeded, and answers OK; if the write fails it answers
TransportError and the field keeps its old value. That the transient data bytes of a READ are empty then is the model's
choice (log entry 3), no clause of the rule. -/
def Obligations.SetFilterWritesConfig : Prop :=
  ∀ (s : State) (arg : Byte), s.phase = [] →
    (s.life = .unconstructed → exec (.setFilter arg) s = .next { s with resp := ⟨3, 0⟩ }) ∧
    (s.life = .ready → 4 < arg.toNat → exec (.setFilter arg) s = .next { s with resp := ⟨2, arg.setWidth 64⟩ }) ∧
    (s.life = .ready → arg.toNat ≤ 4 →
      ∃ c b, c = { s.cfg with filter := arg.setWidth 3 } ∧ b = encConfig (s.cfg.tSb.setWidth 8) arg ∧ b = c.config ∧
        (∀ x, s.env.busReply = .ok x → exec (.setFilter arg) s = .next { s with
          cfg := c
          resp := ⟨0, 0⟩
          mem := s.mem.write 0xF5 b
          trace := s.trace ++ [.write s.devAddr 0xF5 b]
          env := s.env.afterBus }) ∧
        (∀ f, s.env.busReply = .fail f → exec (.setFilter arg) s = .next { s with
          data := []
          resp := ⟨1, f.setWidth 64⟩
          trace := s.trace ++ [.writeFail s.devAddr 0xF5 b f]
          env := s.env.afterBus }))

/-! ## The getters -/

/-- R152 to R156 (decision D21 of the spec), R172: a getter answers its shadow field, issues no transaction and changes nothing but the
response; in UNCONSTRUCTED it answers NotConstructed; with `arg ≠ 0` its word is illegal. -/
def Obligations.GettersReadTheShadow : Prop :=
  (∀ s : State, s.phase = [] → s.life = .ready →
    exec .getOsrsH s = .next { s with resp := ⟨0, s.cfg.osrsH.setWidth 64⟩ } ∧
    exec .getOsrsT s = .next { s with resp := ⟨0, s.cfg.osrsT.setWidth 64⟩ } ∧
    exec .getOsrsP s = .next { s with resp := ⟨0, s.cfg.osrsP.setWidth 64⟩ } ∧
    exec .getMode s = .next { s with resp := ⟨0, s.cfg.mode.setWidth 64⟩ } ∧
    exec .getStandby s = .next { s with resp := ⟨0, s.cfg.tSb.setWidth 64⟩ } ∧
    exec .getFilter s = .next { s with resp := ⟨0, s.cfg.filter.setWidth 64⟩ }) ∧
  (∀ s : State, s.phase = [] → s.life = .unconstructed →
    ∀ i ∈ [Instr.getOsrsH, .getOsrsT, .getOsrsP, .getMode, .getStandby, .getFilter],
      exec i s = .next { s with resp := ⟨3, 0⟩ }) ∧
  (∀ op ∈ [(0x20 : Byte), 0x21, 0x22, 0x23, 0x24, 0x25], ∀ arg : Byte, arg ≠ 0 →
    decode (.command (commandWord op arg)) = .error .argumentNotZero)
/-! ## READ -/

/-- R177, R179, R175: a READ in Forced waits the duration of the shadow codes, reads the eight data bytes in ascending
order, answers the sample and reverts the mode to Sleep without a write. -/
def Obligations.ForcedReadWaitsAndReverts : Prop :=
  ∀ (s : State) (d0 d1 d2 d3 d4 d5 d6 d7 : Byte), s.phase = [] → s.life = .ready → s.cfg.mode = 1 →
    s.env.delayReply = .elapsed → s.env.afterDelay.answers [d0, d1, d2, d3, d4, d5, d6, d7] →
    exec .read s = .next { s with
      cfg := { s.cfg with mode := 0 }
      data := []
      resp := ⟨0, (0 : BitVec 8) ++ raw20 d0 d1 d2 ++ raw20 d3 d4 d5 ++ raw16 d6 d7⟩
      trace := s.trace ++
        [.delay (2400 + 2300 * (s.cfg.osrsT.toNat + s.cfg.osrsP.toNat + s.cfg.osrsH.toNat)),
         .read s.devAddr 0xF7 d0, .read s.devAddr 0xF8 d1, .read s.devAddr 0xF9 d2, .read s.devAddr 0xFA d3,
         .read s.devAddr 0xFB d4, .read s.devAddr 0xFC d5, .read s.devAddr 0xFD d6, .read s.devAddr 0xFE d7]
      env := s.env.afterDelay.afterBusN 8 }

/-- R177, R180, and R181 (Sleep: decision D11 of the spec): a READ in Normal or Sleep does neither wait nor change the
mode. -/
def Obligations.UnforcedReadOnlyReads : Prop :=
  ∀ (s : State) (d0 d1 d2 d3 d4 d5 d6 d7 : Byte), s.phase = [] → s.life = .ready → s.cfg.mode ≠ 1 →
    s.env.answers [d0, d1, d2, d3, d4, d5, d6, d7] →
    exec .read s = .next { s with
      data := []
      resp := ⟨0, (0 : BitVec 8) ++ raw20 d0 d1 d2 ++ raw20 d3 d4 d5 ++ raw16 d6 d7⟩
      trace := s.trace ++
        [.read s.devAddr 0xF7 d0, .read s.devAddr 0xF8 d1, .read s.devAddr 0xF9 d2, .read s.devAddr 0xFA d3,
         .read s.devAddr 0xFB d4, .read s.devAddr 0xFC d5, .read s.devAddr 0xFD d6, .read s.devAddr 0xFE d7]
      env := s.env.afterBusN 8 }

/-- R182: a READ whose read after `before` fails delivers no sample and issues no further read; the mode is not
changed, in Forced neither (decision D12 of the spec). That the data bytes are gone then is the model's form of R34 (log
entry 3). -/
def Obligations.FailedReadKeepsTheMode : Prop :=
  ∀ (s : State) (before : List Byte) (f : Token), s.phase = [] → s.life = .ready → before.length < 8 →
    (s.cfg.mode ≠ 1 → s.env.answers before ∧ (s.env.afterBusN before.length).busReply = .fail f →
      exec .read s = .next { s with
        data := []
        resp := ⟨1, f.setWidth 64⟩
        trace := s.trace ++ dataTrace s.devAddr before ++
          [.readFail s.devAddr (0xF7 + BitVec.ofNat 8 before.length) f]
        env := (s.env.afterBusN before.length).afterBus }) ∧
    (s.cfg.mode = 1 → s.env.delayReply = .elapsed → s.env.afterDelay.answers before ∧
        (s.env.afterDelay.afterBusN before.length).busReply = .fail f →
      exec .read s = .next { s with
        data := []
        resp := ⟨1, f.setWidth 64⟩
        trace := s.trace ++ [.delay s.cfg.durationUs] ++ dataTrace s.devAddr before ++
          [.readFail s.devAddr (0xF7 + BitVec.ofNat 8 before.length) f]
        env := (s.env.afterDelay.afterBusN before.length).afterBus })

/-- R175, R174: the duration formula in whole microseconds, and its range for legal codes. -/
def Obligations.DurationFormula : Prop :=
  ∀ t p h : Nat, durationUs t p h = 2400 + 2300 * (t + p + h) ∧
    (t ≤ 5 → p ≤ 5 → h ≤ 5 → 2400 ≤ durationUs t p h ∧ durationUs t p h ≤ 36900)

/-- R178: the sample words as numbers: most significant byte first, the low nibble of each third byte discarded, and
which of the eight data bytes each word takes. -/
def Obligations.SampleAssembly : Prop :=
  ∀ d0 d1 d2 d3 d4 d5 d6 d7 : Byte, ∃ r, sampleOf [d0, d1, d2, d3, d4, d5, d6, d7] = r ∧
    r.press.toNat = 4096 * d0.toNat + 16 * d1.toNat + d2.toNat / 16 ∧
    r.temp.toNat = 4096 * d3.toNat + 16 * d4.toNat + d5.toNat / 16 ∧
    r.hum.toNat = 256 * d6.toNat + d7.toNat

/-! ## Probes, identity, soft reset -/

/-- R200, R201, and R202, R203 (decisions D19 and D20 of the spec): each reads or writes its one register and answers; no shadow or coefficient changes; a failing
transaction answers TransportError with the token; in UNCONSTRUCTED it answers NotConstructed; with `arg ≠ 0` its word is
illegal. That a failure leaves the transient data bytes of a READ empty is the model's choice (log entry 3). -/
def Obligations.ProbesAndSoftReset : Prop :=
  (∀ (s : State) (b : Byte), s.phase = [] → s.life = .ready → s.env.busReply = .ok b →
    exec .getMeasuring s = .next { s with
      resp := ⟨0, if b.getLsbD 3 then 1 else 0⟩
      trace := s.trace ++ [.read s.devAddr 0xF3 b]
      env := s.env.afterBus } ∧
    exec .getImUpdate s = .next { s with
      resp := ⟨0, if b.getLsbD 0 then 1 else 0⟩
      trace := s.trace ++ [.read s.devAddr 0xF3 b]
      env := s.env.afterBus } ∧
    exec .readChipId s = .next { s with
      resp := ⟨0, b.setWidth 64⟩
      trace := s.trace ++ [.read s.devAddr 0xD0 b]
      env := s.env.afterBus } ∧
    exec .softReset s = .next { s with
      resp := ⟨0, 0⟩
      mem := s.mem.write 0xE0 0xB6
      trace := s.trace ++ [.write s.devAddr 0xE0 0xB6]
      env := s.env.afterBus }) ∧
  (∀ (s : State) (f : Token), s.phase = [] → s.life = .ready → s.env.busReply = .fail f →
    ∀ p ∈ [(Instr.getMeasuring, Event.readFail s.devAddr 0xF3 f), (.getImUpdate, .readFail s.devAddr 0xF3 f),
        (.readChipId, .readFail s.devAddr 0xD0 f), (.softReset, .writeFail s.devAddr 0xE0 0xB6 f)],
      exec p.1 s = .next { s with
        data := []
        resp := ⟨1, f.setWidth 64⟩
        trace := s.trace ++ [p.2]
        env := s.env.afterBus }) ∧
  (∀ s : State, s.phase = [] → s.life = .unconstructed →
    ∀ i ∈ [Instr.getMeasuring, .getImUpdate, .readChipId, .softReset],
      exec i s = .next { s with resp := ⟨3, 0⟩ }) ∧
  (∀ op ∈ [(0x40 : Byte), 0x41, 0x42, 0x50], ∀ arg : Byte, arg ≠ 0 →
    decode (.command (commandWord op arg)) = .error .argumentNotZero)

/-! ## The register-format rows -/

/-- R80, R81, R82, R97, R83: a written row carries its byte to its address, the status row is the read that returns its
byte; running a row as one transaction is the model's choice (log entry 11). -/
def Obligations.RegisterRowsAreOneTransaction : Prop :=
  ∀ s : State, s.phase = [] →
    (∀ (x : Byte), s.env.busReply = .ok x →
      (∀ h : BitVec 3, exec (.regCtrlHum h) s = .next { s with
        mem := s.mem.write 0xF2 ((0 : BitVec 5) ++ h)
        trace := s.trace ++ [.write s.devAddr 0xF2 ((0 : BitVec 5) ++ h)]
        env := s.env.afterBus }) ∧
      (∀ (t p : BitVec 3) (m : BitVec 2), exec (.regCtrlMeas t p m) s = .next { s with
        mem := s.mem.write 0xF4 (t ++ p ++ m)
        trace := s.trace ++ [.write s.devAddr 0xF4 (t ++ p ++ m)]
        env := s.env.afterBus }) ∧
      (∀ sb f : BitVec 3, exec (.regConfig sb f) s = .next { s with
        mem := s.mem.write 0xF5 (sb ++ f ++ (0 : BitVec 2))
        trace := s.trace ++ [.write s.devAddr 0xF5 (sb ++ f ++ (0 : BitVec 2))]
        env := s.env.afterBus }) ∧
      exec .regReset s = .next { s with
        mem := s.mem.write 0xE0 0xB6
        trace := s.trace ++ [.write s.devAddr 0xE0 0xB6]
        env := s.env.afterBus }) ∧
    (∀ (hi : BitVec 4) (m : BitVec 1) (lo : BitVec 2) (im : BitVec 1),
      exec (.regStatus hi m lo im) s =
        .next { s with trace := s.trace ++ [.read s.devAddr 0xF3 (hi ++ m ++ lo ++ im)] })

/-! ## Frames -/

/-- R20, R21, R22, R26: no command but INIT changes the lifecycle, the device address or a coefficient. -/
def Obligations.OnlyInitWritesTheInstance : Prop :=
  ∀ (s t : State) (i : Instr), i.isCommand = true → (∀ arg, i ≠ .init arg) → exec i s = .next t →
    t.life = s.life ∧ t.devAddr = s.devAddr ∧ t.cal = s.cal ∧ t.rawCal = s.rawCal

/-- R144, R173, R204: which shadow field a command other than INIT may change; every other field keeps its value. -/
def Obligations.ShadowFrame : Prop :=
  ∀ (s t : State) (i : Instr), i.isCommand = true → (∀ arg, i ≠ .init arg) → exec i s = .next t →
    cfgFrame i s.cfg t.cfg = true

/-- R69: no instruction changes the register space outside the addresses its writes carry. -/
def Obligations.RegisterSpaceFrame : Prop :=
  ∀ (s t : State) (i : Instr) (a : Nat), s.phase = [] → exec i s = .next t →
    a ∉ (storedAddrs i).map BitVec.toNat → t.mem.read a = s.mem.read a

/-- R69, R58, R61: a command appends to the trace a prefix of its row of R69's list, in order (35 transactions for INIT,
the longest), and the whole row if it ends with OK; every transaction carries the same device address, in READY
`dev_addr`. -/
def Obligations.CommandTrafficIsBounded : Prop :=
  ∀ (s t : State) (i : Instr), i.isCommand = true → exec i s = .next t →
    ∃ evs d, t.trace = s.trace ++ evs ∧ evs.length ≤ 35 ∧ (s.life = .ready → d = s.devAddr) ∧
      (∀ ev ∈ evs, ev.dev = none ∨ ev.dev = some d) ∧
      evs.map (fun ev => ev.request.access) <+: accesses (s.cfg.mode == modeForced) i ∧
      (t.phase = [] → t.resp.status = 0 →
        evs.map (fun ev => ev.request.access) = accesses (s.cfg.mode == modeForced) i)

/-- R70: a failed transaction is the last one of its command, in the step that accepts the command and in a step that
goes on with it: nothing of the command remains. -/
def Obligations.FailedTransactionIsTheLast : Prop :=
  ∀ (s t : State), ((∃ i, exec i s = .next t) ∨ t = resume s) →
    ∃ evs, t.trace = s.trace ++ evs ∧ (∀ ev ∈ evs.dropLast, ev.failed = false) ∧
      (∀ ev ∈ evs.getLast?, ev.failed = true → t.phase = [])

/-- R42, R58, R186 (log entry 7): an answer that comes late leads to the state it leads to at once. A command that
blocks on the transaction after `pre`, resumed, ends as the same command whose answers come without the wait; the same
for the delay. -/
def Obligations.LateAnswersOnlyDelay : Prop :=
  ∀ (s t : State) (i : Instr), i.isCommand = true → exec i s = .next t → t.phase ≠ [] →
    (∀ pre post, s.env.busIn = pre ++ .pending :: post → t.env.busIn = post →
      exec i { s with env := { s.env with busIn := pre ++ post } } = .next (resume t)) ∧
    (∀ pre post, s.env.delayIn = pre ++ .pending :: post → t.env.delayIn = post →
      exec i { s with env := { s.env with delayIn := pre ++ post } } = .next (resume t))

/-! ## Invariants and whole-machine rules -/

/-- R157, R158, R23 to R25, R221: the invariant holds after reset. -/
def Obligations.ResetMeetsTheInvariant : Prop := State.reset.inv = true

/-- R157, R158, R26, R23 to R25, R221: every step keeps the invariant: legal shadow fields, coefficients in range, and in
READY each control register last written with what DeviceConfig says, but for the auto-revert. -/
def Obligations.StepKeepsTheInvariant : Prop :=
  ∀ s t : State, s.inv = true → step s = .next t → t.inv = true

/-- R52, R68, R157, R97: from a state that meets the invariant, every request the block makes is to one of the 46
addresses, in its one direction, with a byte of the register's range. -/
def Obligations.StepKeepsTheTraceInTheMap : Prop :=
  ∀ s t : State, s.inv = true → s.traceOk = true → step s = .next t → t.traceOk = true

/-- R26, R20: while READY, no step changes a coefficient. -/
def Obligations.CoefficientsNeverChangeWhileReady : Prop :=
  ∀ s t : State, s.inv = true → s.life = .ready → step s = .next t → t.life = .ready → t.cal = s.cal

/-- R20, R250: only `rst` leaves READY; only INIT enters it: the step runs a word that decodes to INIT, or goes on with
the rest of one, and it responds OK. -/
def Obligations.LifecycleTransitions : Prop :=
  ∀ s t : State, s.inv = true → step s = .next t →
    (s.life = .ready → t.life = .unconstructed → s.noReset = false) ∧
    (s.life = .unconstructed → t.life = .ready →
      t.phase = [] ∧ t.resp = ⟨0, 0⟩ ∧ t.cal.isSome = true ∧
      ((s.phase = [] ∧ ∃ w arg, s.issued = some w ∧ decode (.command w) = .ok (.init arg)) ∨
       (s.phase ≠ [] ∧ ∃ k, s.phase = (calibReads ++ initTail).drop k)))

/-- R173: the two ways `cfg.mode` changes while READY, in a step that starts a command or goes on with one: SET_MODE(m),
which stores m, and READ in Forced, which reverts to Sleep when it delivers. Either answers OK. -/
def Obligations.ModeChangesOnlyBySetModeOrRead : Prop :=
  ∀ s t : State, s.inv = true → s.life = .ready → step s = .next t → t.life = .ready → t.cfg.mode ≠ s.cfg.mode →
    (∃ arg : Byte, t.cfg.mode = arg.setWidth 2 ∧ (arg = 0 ∨ arg = 1 ∨ arg = 3) ∧
      ((∃ w, s.issued = some w ∧ decode (.command w) = .ok (.setMode arg)) ∨ s.phase = [.setMode arg, .respondOk]) ∧
      t.phase = [] ∧ t.resp = ⟨0, 0⟩) ∨
    (s.cfg.mode = 1 ∧ t.cfg.mode = 0 ∧ t.phase = [] ∧ t.resp.status = 0 ∧
      ((∃ w, s.issued = some w ∧ decode (.command w) = .ok .read) ∨
       ∃ k < 9, s.phase = (readSteps true).drop k))

/-- R158, R179: from an idle READY state whose ctrl-meas register is exactly the shadow's, the two part only in a READ
in Forced. -/
def Obligations.ShadowPartsOnlyByAutoRevert : Prop :=
  ∀ s t : State, s.inv = true → s.phase = [] → s.life = .ready → s.shadowExact = true → step s = .next t →
    t.life = .ready → t.shadowExact = false →
    ∃ w, s.issued = some w ∧ decode (.command w) = .ok .read ∧ s.cfg.mode = 1 ∧ t.cfg.mode = 0

/-- R119, R254: in UNCONSTRUCTED and idle, `dev_addr`, `cal`, `raw_cal` and `cfg` cannot be observed: two states that
differ only there make the same step to every observer. -/
def Obligations.UnconstructedRegistersAreUnobservable : Prop :=
  ∀ s s' : State, sameButInit s s' = true → s.life = .unconstructed → s.phase = [] →
    ∃ t t', step s = .next t ∧ step s' = .next t' ∧ t.observed = t'.observed

/-! ## Pseudo-command, assembler, the sensor's side -/

/-- R96, R177: MEASURE whose transactions complete, issued to an idle block: its first step is SET_MODE forced, its
second READ; the sample is delivered, the mode is Sleep, and nothing of MEASURE is left on the port. -/
def Obligations.MeasureDeliversOneSample : Prop :=
  ∀ (s : State) (x d0 d1 d2 d3 d4 d5 d6 d7 : Byte), s.phase = [] → s.life = .ready →
    s.env.busReply = .ok x → s.env.afterBus.delayReply = .elapsed →
    s.env.afterBus.afterDelay.answers [d0, d1, d2, d3, d4, d5, d6, d7] →
    ∃ u t, step (placeMeasure s) = .next u ∧ step u = .next t ∧
      u.phase = [] ∧ u.resp = ⟨0, 0⟩ ∧ u.cfg = { s.cfg with mode := 1 } ∧
      t.phase = [] ∧ t.cfg = { s.cfg with mode := 0 } ∧ t.env.host = s.env.host ∧
      t.resp = ⟨0, (0 : BitVec 8) ++ raw20 d0 d1 d2 ++ raw20 d3 d4 d5 ++ raw16 d6 d7⟩ ∧
      t.mem = s.mem.write 0xF4 ({ s.cfg with mode := 1 } : DeviceConfig).ctrlMeas

/-- R96: MEASURE is SET_MODE forced with READ as what the host issues next, and READ is issued only after OK: if SET_MODE
fails, or the block is UNCONSTRUCTED, no READ follows; if its write is answered late, READ runs after the late OK. The form
of MEASURE as host inputs is the model's choice (log entries 6 and 19), and so is it that the failing clause leaves the
transient data bytes of a READ empty (log entry 3), which is no part of R96. -/
def Obligations.MeasureReadsOnlyAfterOk : Prop :=
  ∀ s : State, s.phase = [] →
    step (placeMeasure s) = execMeasure s ∧
    (s.life = .unconstructed → ∃ u, step (placeMeasure s) = .next u ∧ step u = .next { s with resp := ⟨3, 0⟩ }) ∧
    (∀ f, s.life = .ready → s.env.busReply = .fail f →
      ∃ u, step (placeMeasure s) = .next u ∧ step u = .next { s with
        data := []
        resp := ⟨1, f.setWidth 64⟩
        trace := s.trace ++ [.writeFail s.devAddr 0xF4 ({ s.cfg with mode := 1 } : DeviceConfig).ctrlMeas f]
        env := s.env.afterBus }) ∧
    (∀ x, s.life = .ready → s.env.busReply = .pending → s.env.afterBus.busReply = .ok x →
      ∃ u v, step (placeMeasure s) = .next u ∧ u.phase = [.setMode 1, .respondOk] ∧ step u = .next v ∧
        v.phase = [] ∧ v.resp = ⟨0, 0⟩ ∧ v.cfg = { s.cfg with mode := 1 } ∧ v.env = { s.env.afterBus.afterBus with
          host := .cmdIfOk (commandWord 0x30 0) :: s.env.host } ∧
        step v = execRead { v with env := s.env.afterBus.afterBus })

/-- R95, R96, R86 (decision D2 of the spec): a line's word is `(op << 8) | operand` for every opcode and operand; the rows
are the 19 commands with their opcodes and the operand names of R95 with their codes; a line of a row that takes an
operand is its word, for every operand the row accepts, names and numbers; a line of a row without one is its word with 0;
INIT alone has the default address; MEASURE is its two commands. That a number above 255 and a superfluous operand are
refused is the model's choice (log entry 18), as is the form of MEASURE's inputs (log entry 19). -/
def Obligations.AssemblerWords : Prop :=
  (∀ op n : Nat, op < 256 → n < 256 →
    (asmWord op n).toNat = 256 * op + n ∧ asmWord op n = commandWord (BitVec.ofNat 8 op) (BitVec.ofNat 8 n)) ∧
  (asmRows.map (fun r => (r.mnemonic, r.op)) =
    [("INIT", 0x01), ("SET_OSRS_H", 0x10), ("SET_OSRS_T", 0x11), ("SET_OSRS_P", 0x12), ("SET_MODE", 0x13),
     ("SET_STANDBY", 0x14), ("SET_FILTER", 0x15), ("GET_COEFF", 0x28), ("GET_OSRS_H", 0x20), ("GET_OSRS_T", 0x21),
     ("GET_OSRS_P", 0x22), ("GET_MODE", 0x23), ("GET_STANDBY", 0x24), ("GET_FILTER", 0x25), ("READ", 0x30),
     ("GET_MEASURING", 0x40), ("GET_IM_UPDATE", 0x41), ("READ_CHIP_ID", 0x42), ("SOFT_RESET", 0x50)].map
      (fun p => (p.1.toList, p.2))) ∧
  (asmRows.map (fun r => (r.takesOperand, r.names)) =
    ([[], [("skip", 0), ("x1", 1), ("x2", 2), ("x4", 3), ("x8", 4), ("x16", 5)],
      [("skip", 0), ("x1", 1), ("x2", 2), ("x4", 3), ("x8", 4), ("x16", 5)],
      [("skip", 0), ("x1", 1), ("x2", 2), ("x4", 3), ("x8", 4), ("x16", 5)],
      [("sleep", 0), ("forced", 1), ("normal", 3)],
      [("sb0_5", 0), ("sb62_5", 1), ("sb125", 2), ("sb250", 3),
       ("sb500", 4), ("sb1000", 5), ("sb10", 6), ("sb20", 7)],
      [("off", 0), ("f2", 1), ("f4", 2), ("f8", 3), ("f16", 4)],
      [("T0", 0), ("T1", 1), ("T2", 2), ("P0", 3), ("P1", 4), ("P2", 5), ("P3", 6), ("P4", 7), ("P5", 8),
       ("P6", 9), ("P7", 10), ("P8", 11), ("H0", 12), ("H1", 13), ("H2", 14), ("H3", 15), ("H4", 16),
       ("H5", 17)]] : List (List (String × Nat))).map
      (fun l => (true, l.map (fun p => (p.1.toList, p.2)))) ++ List.replicate 11 (false, [])) ∧
  (∀ row ∈ asmRows, row.takesOperand = true → ∀ (w : List Char) (n : Nat),
    w ≠ [] → (∀ c ∈ w, c ≠ ' ' ∧ c ≠ '\t' ∧ c ≠ ';') → asmOperand row w = some n →
    assembleLine (row.mnemonic ++ ' ' :: w) = some [asmWord row.op n]) ∧
  (∀ row ∈ asmRows, ∀ p ∈ row.names, asmOperand row p.1 = some p.2) ∧
  (∀ row ∈ asmRows, ∀ (w : List Char) (n : Nat), row.names.lookup w = none → parseNumber w = some n →
    asmOperand row w = if n < 256 then some n else none) ∧
  (∀ row ∈ asmRows, row.takesOperand = false → assembleLine row.mnemonic = some [asmWord row.op 0] ∧
    ∀ w : List Char, w ≠ [] → (∀ c ∈ w, c ≠ ' ' ∧ c ≠ '\t' ∧ c ≠ ';') →
      assembleLine (row.mnemonic ++ ' ' :: w) = none) ∧
  assembleLine "INIT".toList = some [0x0176] ∧ assembleLine "MEASURE".toList = some [0x1301, 0x3000] ∧
  assembleInputs "MEASURE".toList = some measureInputs

/-- R254, R62: after a successful INIT the sensor's control registers hold 0x01, 0x24 and 0xA0 whatever they held
before, and the humidity code is in effect. The view of the one sensor is the model's (log entries 17, 20 and 21). -/
def Obligations.InitSettlesTheSensor : Prop :=
  ∀ (s t : State) (arg : Byte), s.phase = [] → s.life = .unconstructed → exec (.init arg) s = .next t →
    t.life = .ready →
    (sensorView t.trace).ctrlHum = some 0x01 ∧ (sensorView t.trace).ctrlMeas = some 0x24 ∧
    (sensorView t.trace).config = some 0xA0 ∧ (sensorView t.trace).humInEffect = some 0x01

/-- R255, R62: a SET_OSRS_H that answers OK leaves the new humidity code in effect in the sensor. The view of the one
sensor is the model's (log entries 17, 20 and 21). -/
def Obligations.SetOsrsHCommitsHumidity : Prop :=
  ∀ (s t : State) (arg : Byte), s.phase = [] → s.life = .ready → exec (.setOsrsH arg) s = .next t →
    t.phase = [] → t.resp.status = 0 →
    (sensorView t.trace).ctrlHum = some arg ∧ (sensorView t.trace).humInEffect = some arg ∧ arg.toNat ≤ 5
end

