-- ==== Sys2Proof/Laws/State.lean ====
section
/-! SUPPORT. What each named update does to each field of the state, by rfl. -/

namespace Sys2Proof.Machine

@[simp] theorem respond_life (st : Status) (d : BitVec 64) (s : State) : (respond st d s).life = s.life := rfl
@[simp] theorem respond_devAddr (st : Status) (d : BitVec 64) (s : State) : (respond st d s).devAddr = s.devAddr := rfl
@[simp] theorem respond_cal (st : Status) (d : BitVec 64) (s : State) : (respond st d s).cal = s.cal := rfl
@[simp] theorem respond_rawCal (st : Status) (d : BitVec 64) (s : State) : (respond st d s).rawCal = s.rawCal := rfl
@[simp] theorem respond_cfg (st : Status) (d : BitVec 64) (s : State) : (respond st d s).cfg = s.cfg := rfl
@[simp] theorem respond_data (st : Status) (d : BitVec 64) (s : State) : (respond st d s).data = s.data := rfl
@[simp] theorem respond_phase (st : Status) (d : BitVec 64) (s : State) : (respond st d s).phase = [] := rfl
@[simp] theorem respond_resp (st : Status) (d : BitVec 64) (s : State) : (respond st d s).resp = { status := st.code, data := d } := rfl
@[simp] theorem respond_mem (st : Status) (d : BitVec 64) (s : State) : (respond st d s).mem = s.mem := rfl
@[simp] theorem respond_trace (st : Status) (d : BitVec 64) (s : State) : (respond st d s).trace = s.trace := rfl
@[simp] theorem respond_env (st : Status) (d : BitVec 64) (s : State) : (respond st d s).env = s.env := rfl

@[simp] theorem takeHost_life (s : State) : (s.takeHost).life = s.life := rfl
@[simp] theorem takeHost_devAddr (s : State) : (s.takeHost).devAddr = s.devAddr := rfl
@[simp] theorem takeHost_cal (s : State) : (s.takeHost).cal = s.cal := rfl
@[simp] theorem takeHost_rawCal (s : State) : (s.takeHost).rawCal = s.rawCal := rfl
@[simp] theorem takeHost_cfg (s : State) : (s.takeHost).cfg = s.cfg := rfl
@[simp] theorem takeHost_data (s : State) : (s.takeHost).data = s.data := rfl
@[simp] theorem takeHost_phase (s : State) : (s.takeHost).phase = s.phase := rfl
@[simp] theorem takeHost_resp (s : State) : (s.takeHost).resp = s.resp := rfl
@[simp] theorem takeHost_mem (s : State) : (s.takeHost).mem = s.mem := rfl
@[simp] theorem takeHost_trace (s : State) : (s.takeHost).trace = s.trace := rfl
@[simp] theorem takeHost_env (s : State) : (s.takeHost).env = { s.env with host := s.env.host.tail } := rfl

@[simp] theorem offerByte_life (b : Byte) (s : State) : (s.offerByte b).life = s.life := rfl
@[simp] theorem offerByte_devAddr (b : Byte) (s : State) : (s.offerByte b).devAddr = s.devAddr := rfl
@[simp] theorem offerByte_cal (b : Byte) (s : State) : (s.offerByte b).cal = s.cal := rfl
@[simp] theorem offerByte_rawCal (b : Byte) (s : State) : (s.offerByte b).rawCal = s.rawCal := rfl
@[simp] theorem offerByte_cfg (b : Byte) (s : State) : (s.offerByte b).cfg = s.cfg := rfl
@[simp] theorem offerByte_data (b : Byte) (s : State) : (s.offerByte b).data = s.data := rfl
@[simp] theorem offerByte_phase (b : Byte) (s : State) : (s.offerByte b).phase = s.phase := rfl
@[simp] theorem offerByte_resp (b : Byte) (s : State) : (s.offerByte b).resp = s.resp := rfl
@[simp] theorem offerByte_mem (b : Byte) (s : State) : (s.offerByte b).mem = s.mem := rfl
@[simp] theorem offerByte_trace (b : Byte) (s : State) : (s.offerByte b).trace = s.trace := rfl
@[simp] theorem offerByte_env (b : Byte) (s : State) : (s.offerByte b).env = { s.env with busIn := .ok b :: s.env.busIn } := rfl

@[simp] theorem unspecifyInit_life (s : State) : (unspecifyInit s).life = s.life := rfl
@[simp] theorem unspecifyInit_devAddr (s : State) : (unspecifyInit s).devAddr = Config.freeDevAddr s.env.draws := rfl
@[simp] theorem unspecifyInit_cal (s : State) : (unspecifyInit s).cal = none := rfl
@[simp] theorem unspecifyInit_rawCal (s : State) : (unspecifyInit s).rawCal = [] := rfl
@[simp] theorem unspecifyInit_cfg (s : State) : (unspecifyInit s).cfg = freeConfig s.env.draws := rfl
@[simp] theorem unspecifyInit_data (s : State) : (unspecifyInit s).data = s.data := rfl
@[simp] theorem unspecifyInit_phase (s : State) : (unspecifyInit s).phase = s.phase := rfl
@[simp] theorem unspecifyInit_resp (s : State) : (unspecifyInit s).resp = s.resp := rfl
@[simp] theorem unspecifyInit_mem (s : State) : (unspecifyInit s).mem = s.mem := rfl
@[simp] theorem unspecifyInit_trace (s : State) : (unspecifyInit s).trace = s.trace := rfl
@[simp] theorem unspecifyInit_env (s : State) : (unspecifyInit s).env = { s.env with draws := s.env.draws + 1 } := rfl

@[simp] theorem hardReset_life (s : State) : (hardReset s).life = .unconstructed := rfl
@[simp] theorem hardReset_devAddr (s : State) : (hardReset s).devAddr = 0 := rfl
@[simp] theorem hardReset_cal (s : State) : (hardReset s).cal = none := rfl
@[simp] theorem hardReset_rawCal (s : State) : (hardReset s).rawCal = [] := rfl
@[simp] theorem hardReset_cfg (s : State) : (hardReset s).cfg = DeviceConfig.defaults := rfl
@[simp] theorem hardReset_data (s : State) : (hardReset s).data = [] := rfl
@[simp] theorem hardReset_phase (s : State) : (hardReset s).phase = [] := rfl
@[simp] theorem hardReset_resp (s : State) : (hardReset s).resp = { status := 0, data := 0 } := rfl
@[simp] theorem hardReset_mem (s : State) : (hardReset s).mem = s.mem := rfl
@[simp] theorem hardReset_trace (s : State) : (hardReset s).trace = s.trace ++ abandonedEvents s := rfl
@[simp] theorem hardReset_env (s : State) : (hardReset s).env = s.env := rfl

@[simp] theorem afterBus_host (e : Env) : e.afterBus.host = e.host := by
  unfold Env.afterBus
  split <;> rfl

@[simp] theorem afterBus_delayIn (e : Env) : e.afterBus.delayIn = e.delayIn := by
  unfold Env.afterBus
  split <;> rfl

@[simp] theorem afterDelay_host (e : Env) : e.afterDelay.host = e.host := by
  unfold Env.afterDelay
  split <;> rfl

@[simp] theorem afterDelay_busIn (e : Env) : e.afterDelay.busIn = e.busIn := by
  unfold Env.afterDelay
  split <;> rfl

end Sys2Proof.Machine
end

