-- ==== Sys2Proof/Laws/Ops.lean ====
section
/-! SUPPORT. What each shared operation can do, said once. -/

namespace Sys2Proof.Machine

/-! ## Requests -/

/-- Everything a transaction's read can do. -/
theorem ask_read_cases (a : Byte) (s : State) :
    (∃ b, s.env.busReply = .ok b ∧
      ask (.read a) s = .done b { s with trace := s.trace ++ [.read s.devAddr a b], env := s.env.afterBus }) ∨
    (∃ f, s.env.busReply = .fail f ∧
      ask (.read a) s = .failed f { s with trace := s.trace ++ [.readFail s.devAddr a f], env := s.env.afterBus }) ∨
    (s.env.busReply = .pending ∧ ask (.read a) s = .blocked { s with env := s.env.afterBus }) := by
  cases h : s.env.busReply <;> simp [ask, h]

/-- Everything a transaction's write can do. -/
theorem ask_write_cases (a b : Byte) (s : State) :
    (∃ x, s.env.busReply = .ok x ∧
      ask (.write a b) s = .done 0 { s with
        mem := s.mem.write a.toNat b, trace := s.trace ++ [.write s.devAddr a b], env := s.env.afterBus }) ∨
    (∃ f, s.env.busReply = .fail f ∧
      ask (.write a b) s =
        .failed f { s with trace := s.trace ++ [.writeFail s.devAddr a b f], env := s.env.afterBus }) ∨
    (s.env.busReply = .pending ∧ ask (.write a b) s = .blocked { s with env := s.env.afterBus }) := by
  cases h : s.env.busReply <;> simp [ask, h]

/-- A read that BUS answers with `b`. -/
theorem ask_read_ok {s : State} {b : Byte} (a : Byte) (h : s.env.busReply = .ok b) :
    ask (.read a) s = .done b { s with trace := s.trace ++ [.read s.devAddr a b], env := s.env.afterBus } := by
  simp [ask, h]

/-- A write that BUS answers with success. -/
theorem ask_write_ok {s : State} {x : Byte} (a b : Byte) (h : s.env.busReply = .ok x) :
    ask (.write a b) s = .done 0 { s with
      mem := s.mem.write a.toNat b, trace := s.trace ++ [.write s.devAddr a b], env := s.env.afterBus } := by
  simp [ask, h]

/-- Everything a delay request can do: it never fails. -/
theorem ask_delay_cases (us : Nat) (s : State) :
    (s.env.delayReply = .elapsed ∧
      ask (.delay us) s = .done 0 { s with trace := s.trace ++ [.delay us], env := s.env.afterDelay }) ∨
    (s.env.delayReply = .pending ∧ ask (.delay us) s = .blocked { s with env := s.env.afterDelay }) := by
  cases h : s.env.delayReply <;> simp [ask, h]

/-! ## The sequencer -/

@[simp] theorem run_nil (s : State) : run [] s = { s with phase := [] } := rfl

/-- A micro-step without a request. -/
theorem run_internal {m : Micro} {s : State} (ms : List Micro) (h : m.request s = none) :
    run (m :: ms) s = run ms (m.complete 0 s) := by
  simp [run, h]

/-- A micro-step whose request is answered. -/
theorem run_done {m : Micro} {s s' : State} {r : Request} {b : Byte} (ms : List Micro) (h : m.request s = some r)
    (ha : ask r s = .done b s') : run (m :: ms) s = run ms (m.complete b s') := by
  simp [run, h, ha]

/-- A micro-step whose transaction fails ends the command (R70, R228). -/
theorem run_failed {m : Micro} {s s' : State} {r : Request} {f : Token} (ms : List Micro) (h : m.request s = some r)
    (ha : ask r s = .failed f s') : run (m :: ms) s = transportError f s' := by
  simp [run, h, ha]

/-- A micro-step whose request is not answered yet stays the next thing to do. -/
theorem run_blocked {m : Micro} {s s' : State} {r : Request} (ms : List Micro) (h : m.request s = some r)
    (ha : ask r s = .blocked s') : run (m :: ms) s = { s' with phase := m :: ms } := by
  simp [run, h, ha]

/-- The calibration reads, all answered: the bytes are gathered in read order (R110, R111). -/
theorem run_calibReads (rest : List Micro) (raw : List Byte) (i : Nat) (s : State) (h : s.env.answers raw) :
    run ((List.range' i raw.length).map Micro.readCal ++ rest) s =
      run rest { s with
        rawCal := s.rawCal ++ raw
        trace := s.trace ++ (raw.zipIdx i).map (fun p => Event.read s.devAddr (calibAddr p.2) p.1)
        env := s.env.afterBusN raw.length } := by
  induction raw generalizing i s with
  | nil => simp [Env.afterBusN]
  | cons b bs ih =>
    obtain ⟨hb, hs⟩ := h
    have step := run_done (m := .readCal i) (s := s) ((List.range' (i + 1) bs.length).map Micro.readCal ++ rest) rfl
      (ask_read_ok _ hb)
    rw [List.length_cons, List.range'_succ, List.map_cons, List.cons_append, step, ih (i + 1) _ hs]
    simp [Micro.complete, Env.afterBusN]

/-- The data reads, all answered (R177). -/
theorem run_dataReads (rest : List Micro) (d : List Byte) (j : Nat) (s : State) (h : s.env.answers d) :
    run ((List.range' j d.length).map Micro.readData ++ rest) s =
      run rest { s with
        data := s.data ++ d
        trace := s.trace ++ (d.zipIdx j).map (fun p => Event.read s.devAddr (addrData + BitVec.ofNat 8 p.2) p.1)
        env := s.env.afterBusN d.length } := by
  induction d generalizing j s with
  | nil => simp [Env.afterBusN]
  | cons b bs ih =>
    obtain ⟨hb, hs⟩ := h
    have step := run_done (m := .readData j) (s := s) ((List.range' (j + 1) bs.length).map Micro.readData ++ rest) rfl
      (ask_read_ok _ hb)
    rw [List.length_cons, List.range'_succ, List.map_cons, List.cons_append, step, ih (j + 1) _ hs]
    simp [Micro.complete, Env.afterBusN]

/-- Answers to more transactions than one list names. -/
theorem answers_append (e : Env) (xs ys : List Byte) :
    e.answers (xs ++ ys) ↔ e.answers xs ∧ (e.afterBusN xs.length).answers ys := by
  induction xs generalizing e with
  | nil => simp [Env.answers, Env.afterBusN]
  | cons x xs ih => simp [Env.answers, Env.afterBusN, ih, and_assoc]

/-- Answers that the environment lists are given. -/
theorem answers_listed (e : Env) (bs : List Byte) (rest : List BusReply) (h : e.busIn = bs.map .ok ++ rest) :
    e.answers bs := by
  induction bs generalizing e with
  | nil => trivial
  | cons b bs ih => exact ⟨by simp [Env.busReply, h], ih _ (by simp [Env.afterBus, h])⟩

/-! ## Acceptance -/

/-- An idle block accepts. -/
theorem whenIdle_idle {s : State} (t : State) (h : s.phase = []) : whenIdle s t = .next t := by
  simp [whenIdle, h]

/-- The lifecycle check passes in READY. -/
theorem whenReady_ready {s : State} (t : State) (h : s.life = .ready) : whenReady s t = t := by
  simp [whenReady, h]

/-- The lifecycle check stops in UNCONSTRUCTED. -/
theorem whenReady_unconstructed {s : State} (t : State) (h : s.life = .unconstructed) :
    whenReady s t = notConstructed s := by
  simp [whenReady, h]

/-- A transport failure in READY stores nothing but the response. -/
theorem transportError_ready {s : State} (f : Token) (h : s.life = .ready) :
    transportError f s = respond .transportError (f.setWidth 64) { s with data := [] } := by
  simp [transportError, h]

end Sys2Proof.Machine
end

