-- ==== Sys2Proof/Laws/PerInstr.lean ====
section
/-! SUPPORT. Per-instruction laws. The family EncodingFitsTable: an encoded instruction has its opcode-table row's width
and the row's fixed bits (spec/opcode_table.json `mask` and `match`). -/

namespace Sys2Proof.Laws

/-- The code of `i` has the width and the fixed bits of its row. -/
def EncodingFitsTable.Statement (i : Instr) : Prop :=
  (encode i).nbits = (tableRow i).nbits ∧ (encode i).bits &&& (tableRow i).mask = (tableRow i).pat

theorem EncodingFitsTable.init (arg : Byte) : EncodingFitsTable.Statement (.init arg) := by
  simp only [EncodingFitsTable.Statement]
  revert arg
  decide

theorem EncodingFitsTable.setOsrsH (arg : Byte) : EncodingFitsTable.Statement (.setOsrsH arg) := by
  simp only [EncodingFitsTable.Statement]
  revert arg
  decide

theorem EncodingFitsTable.setOsrsT (arg : Byte) : EncodingFitsTable.Statement (.setOsrsT arg) := by
  simp only [EncodingFitsTable.Statement]
  revert arg
  decide

theorem EncodingFitsTable.setOsrsP (arg : Byte) : EncodingFitsTable.Statement (.setOsrsP arg) := by
  simp only [EncodingFitsTable.Statement]
  revert arg
  decide

theorem EncodingFitsTable.setMode (arg : Byte) : EncodingFitsTable.Statement (.setMode arg) := by
  simp only [EncodingFitsTable.Statement]
  revert arg
  decide

theorem EncodingFitsTable.setStandby (arg : Byte) : EncodingFitsTable.Statement (.setStandby arg) := by
  simp only [EncodingFitsTable.Statement]
  revert arg
  decide

theorem EncodingFitsTable.setFilter (arg : Byte) : EncodingFitsTable.Statement (.setFilter arg) := by
  simp only [EncodingFitsTable.Statement]
  revert arg
  decide

theorem EncodingFitsTable.getOsrsH : EncodingFitsTable.Statement (.getOsrsH) := ⟨rfl, by decide⟩

theorem EncodingFitsTable.getOsrsT : EncodingFitsTable.Statement (.getOsrsT) := ⟨rfl, by decide⟩

theorem EncodingFitsTable.getOsrsP : EncodingFitsTable.Statement (.getOsrsP) := ⟨rfl, by decide⟩

theorem EncodingFitsTable.getMode : EncodingFitsTable.Statement (.getMode) := ⟨rfl, by decide⟩

theorem EncodingFitsTable.getStandby : EncodingFitsTable.Statement (.getStandby) := ⟨rfl, by decide⟩

theorem EncodingFitsTable.getFilter : EncodingFitsTable.Statement (.getFilter) := ⟨rfl, by decide⟩

theorem EncodingFitsTable.getCoeff (arg : Byte) : EncodingFitsTable.Statement (.getCoeff arg) := by
  simp only [EncodingFitsTable.Statement]
  revert arg
  decide

theorem EncodingFitsTable.read : EncodingFitsTable.Statement (.read) := ⟨rfl, by decide⟩

theorem EncodingFitsTable.getMeasuring : EncodingFitsTable.Statement (.getMeasuring) := ⟨rfl, by decide⟩

theorem EncodingFitsTable.getImUpdate : EncodingFitsTable.Statement (.getImUpdate) := ⟨rfl, by decide⟩

theorem EncodingFitsTable.readChipId : EncodingFitsTable.Statement (.readChipId) := ⟨rfl, by decide⟩

theorem EncodingFitsTable.softReset : EncodingFitsTable.Statement (.softReset) := ⟨rfl, by decide⟩

theorem EncodingFitsTable.regCtrlHum (h : BitVec 3) : EncodingFitsTable.Statement (.regCtrlHum h) := by
  simp only [EncodingFitsTable.Statement]
  revert h
  decide

theorem EncodingFitsTable.regCtrlMeas (t p : BitVec 3) (m : BitVec 2) : EncodingFitsTable.Statement (.regCtrlMeas t p m) := by
  simp [EncodingFitsTable.Statement, encode, tableRow, Code.nbits, Code.bits]

theorem EncodingFitsTable.regConfig (sb f : BitVec 3) : EncodingFitsTable.Statement (.regConfig sb f) := by
  simp only [EncodingFitsTable.Statement]
  revert sb f
  decide

theorem EncodingFitsTable.regStatus (hi : BitVec 4) (m : BitVec 1) (lo : BitVec 2) (im : BitVec 1) : EncodingFitsTable.Statement (.regStatus hi m lo im) := by
  simp [EncodingFitsTable.Statement, encode, tableRow, Code.nbits, Code.bits]

theorem EncodingFitsTable.regReset : EncodingFitsTable.Statement (.regReset) := ⟨rfl, by decide⟩

end Sys2Proof.Laws
end

