-- ==== Sys2Proof/Laws/Step.lean ====
section
/-! SUPPORT. What one step can do, said once: statements about a next state start here. -/

namespace Sys2Proof.Machine

/-- A word the host issues is issued to an idle block. -/
theorem State.issued_phase {s : State} {w : CmdWord} (h : s.issued = some w) : s.phase = [] := by
  unfold State.issued at h
  split at h <;> simp_all

/-- A step that takes a word from the port. -/
theorem step_word_cases {s t : State} {w : CmdWord} (hf : fetch s = fetchWord w s) (h : step s = .next t) :
    (∃ i, decode (.command w) = .ok i ∧ exec i s.takeHost = .next t) ∨
      (∃ e, decode (.command w) = .error e ∧ t = illegalCommand w s.takeHost) := by
  unfold step at h
  rw [hf] at h
  unfold fetchWord at h
  cases hd : decode (.command w) with
  | ok i => exact .inl ⟨i, rfl, by simpa [hd] using h⟩
  | error e => exact .inr ⟨e, rfl, by simpa [hd] using h.symm⟩

/-- Everything a step that answers a next state can have done: hardware reset, going on with the running command,
waiting, dropping a word that waits for an OK that did not come, running a command, or refusing a word that is none. -/
theorem step_next_cases {s t : State} (h : step s = .next t) :
    (∃ rest, s.env.host = .rst :: rest ∧ t = hardReset s.takeReset) ∨
    (s.phase ≠ [] ∧ t = resume s) ∨
    (s.phase = [] ∧ s.env.host = [] ∧ t = s) ∨
    (s.phase = [] ∧ s.issued = none ∧ t = s.takeHost) ∨
    (∃ w, s.issued = some w ∧
      ((∃ i, decode (.command w) = .ok i ∧ exec i s.takeHost = .next t) ∨
       (∃ e, decode (.command w) = .error e ∧ t = illegalCommand w s.takeHost))) := by
  cases hh : s.env.host with
  | nil =>
    cases hp : s.phase with
    | nil => exact .inr (.inr (.inl ⟨rfl, rfl, by simpa [step, fetch, hh, hp] using h.symm⟩))
    | cons m ms => exact .inr (.inl ⟨by simp, by simpa [step, fetch, hh, hp] using h.symm⟩)
  | cons ev rest =>
    cases hp : s.phase with
    | cons m ms =>
      cases ev with
      | rst => exact .inl ⟨rest, rfl, by simpa [step, fetch, hh] using h.symm⟩
      | cmd w => exact .inr (.inl ⟨by simp, by simpa [step, fetch, hh, hp] using h.symm⟩)
      | cmdIfOk w => exact .inr (.inl ⟨by simp, by simpa [step, fetch, hh, hp] using h.symm⟩)
    | nil =>
      cases ev with
      | rst => exact .inl ⟨rest, rfl, by simpa [step, fetch, hh] using h.symm⟩
      | cmd w =>
        refine .inr (.inr (.inr (.inr ⟨w, by simp [State.issued, hh, hp], step_word_cases (by simp [fetch, hh, hp]) h⟩)))
      | cmdIfOk w =>
        by_cases hr : s.resp.status = Status.ok.code
        · refine .inr (.inr (.inr (.inr ⟨w, by simp [State.issued, hh, hp, hr], step_word_cases (by simp [fetch, hh, hp, hr]) h⟩)))
        · refine .inr (.inr (.inr (.inl ⟨rfl, by simp [State.issued, hh, hp, hr], ?_⟩)))
          simpa [step, fetch, hh, hp, hr] using h.symm

end Sys2Proof.Machine
end

