-- ==== Sys2Proof/Tests/Slice0.lean ====
section
/-! SUPPORT. Tests: expected values are those of spec/95_test_vectors.md and of the rules' own examples. -/

namespace Sys2Proof.Tests

open Sys2Proof.Machine

/-! ## Well-formedness: an ill-formed term for each check (R80 to R82, R88, R89, R91) -/

theorem test_wf_ctrlHum_code6 : (Instr.regCtrlHum 6).wellFormed = false := by decide
theorem test_wf_ctrlMeas_temp7 : (Instr.regCtrlMeas 7 1 0).wellFormed = false := by decide
theorem test_wf_ctrlMeas_press6 : (Instr.regCtrlMeas 1 6 0).wellFormed = false := by decide
theorem test_wf_ctrlMeas_mode2 : (Instr.regCtrlMeas 1 1 2).wellFormed = false := by decide
theorem test_wf_config_filter5 : (Instr.regConfig 5 5).wellFormed = false := by decide
theorem test_wf_accepts : ((Instr.regCtrlHum 5).wellFormed && (Instr.regCtrlMeas 5 5 3).wellFormed &&
    (Instr.regConfig 7 4).wellFormed && (Instr.setMode 2).wellFormed) = true := by decide

/-! ## Decoding: words written out from the encodings of R86, and bytes from R80 to R83 and R97 -/

theorem test_decode_init : decode (.command 0b0000000101110110) = .ok (.init 0x76) := by decide
theorem test_decode_setOsrsH : decode (.command 0b0001000000000101) = .ok (.setOsrsH 5) := by decide
theorem test_decode_setOsrsT : decode (.command 0b0001000100000010) = .ok (.setOsrsT 2) := by decide
theorem test_decode_setOsrsP : decode (.command 0b0001001000000101) = .ok (.setOsrsP 5) := by decide
theorem test_decode_setMode : decode (.command 0b0001001100000011) = .ok (.setMode 3) := by decide
theorem test_decode_setStandby : decode (.command 0b0001010000000110) = .ok (.setStandby 6) := by decide
theorem test_decode_setFilter : decode (.command 0b0001010100000010) = .ok (.setFilter 2) := by decide
theorem test_decode_getOsrsH : decode (.command 0b0010000000000000) = .ok .getOsrsH := by decide
theorem test_decode_getOsrsT : decode (.command 0b0010000100000000) = .ok .getOsrsT := by decide
theorem test_decode_getOsrsP : decode (.command 0b0010001000000000) = .ok .getOsrsP := by decide
theorem test_decode_getMode : decode (.command 0b0010001100000000) = .ok .getMode := by decide
theorem test_decode_getStandby : decode (.command 0b0010010000000000) = .ok .getStandby := by decide
theorem test_decode_getFilter : decode (.command 0b0010010100000000) = .ok .getFilter := by decide
theorem test_decode_getCoeff : decode (.command 0b0010100000001111) = .ok (.getCoeff 15) := by decide
theorem test_decode_read : decode (.command 0b0011000000000000) = .ok .read := by decide
theorem test_decode_getMeasuring : decode (.command 0b0100000000000000) = .ok .getMeasuring := by decide
theorem test_decode_getImUpdate : decode (.command 0b0100000100000000) = .ok .getImUpdate := by decide
theorem test_decode_readChipId : decode (.command 0b0100001000000000) = .ok .readChipId := by decide
theorem test_decode_softReset : decode (.command 0b0101000000000000) = .ok .softReset := by decide
/-- V4: ctrl-hum 0x05 -/
theorem test_decode_regCtrlHum : decode (.regWrite 0xF2 0b00000101) = .ok (.regCtrlHum 5) := by decide
/-- V4: ctrl-meas 0x55 is (2, 5, 1) -/
theorem test_decode_regCtrlMeas : decode (.regWrite 0xF4 0b01010101) = .ok (.regCtrlMeas 2 5 1) := by decide
/-- V4: config 0xC8 is (6, 2) -/
theorem test_decode_regConfig : decode (.regWrite 0xF5 0b11001000) = .ok (.regConfig 6 2) := by decide
/-- V7: status 0x09 has both flags -/
theorem test_decode_regStatus : decode (.regRead 0xF3 0b00001001) = .ok (.regStatus 0 1 0 1) := by decide
theorem test_decode_regReset : decode (.regWrite 0xE0 0b10110110) = .ok .regReset := by decide
/-- V8: 0x9900 and 0x3001 are illegal words (R92) -/
theorem test_decode_illegal : decode (.command 0x9900) = .error .illegalOpcode ∧
    decode (.command 0x3001) = .error .argumentNotZero := by decide
theorem test_decode_reserved : decode (.regWrite 0xF5 0x01) = .error .reservedBits ∧
    decode (.regWrite 0xF2 0x08) = .error .reservedBits ∧ decode (.regWrite 0xE0 0xB7) = .error .notTheResetByte ∧
    decode (.regWrite 0xF6 0x00) = .error .noSuchFormat := by decide
theorem test_tableWord : decodeTableWord 16 0x2811 = some (.getCoeff 17) ∧
    decodeTableWord 8 0xB6 = some .regReset ∧ decodeTableWord 8 0x03 = some (.regCtrlHum 3) ∧
    decodeTableWord 8 0x55 = some (.regCtrlMeas 2 5 1) ∧ decodeTableWord 16 0x0100 = some (.init 0) := by decide

/-! ## The assembler's lines (programs P1 to P4) -/

theorem test_asm_init : assembleLine "INIT 0x76".toList = some [0x0176] := by decide
theorem test_asm_init_default : assembleLine "INIT ; default".toList = some [0x0176] := by decide
theorem test_asm_coeff : assembleLine "GET_COEFF H5".toList = some [0x2811] := by decide
theorem test_asm_standby : assembleLine "SET_STANDBY sb10".toList = some [0x1406] := by decide
theorem test_asm_number : assembleLine "SET_FILTER 5".toList = some [0x1505] := by decide
theorem test_asm_measure : assembleLine "MEASURE".toList = some [0x1301, 0x3000] := by decide
theorem test_asm_refuses : assembleLine "READ 1".toList = none ∧ assembleLine "SET_MODE off".toList = none := by decide

/-! ## Pure functions (V2 to V6) -/

/-- V3's sign-correction table -/
theorem test_signCorr : signCorr 8 0x80 = -128 ∧ signCorr 8 0x7F = 127 ∧ signCorr 12 0x800 = -2048 ∧
    signCorr 12 0xFFF = -1 ∧ signCorr 16 0xFC18 = -1000 ∧ signCorr 16 0x7FFF = 32767 := by decide
/-- V3: AB CD EF and 12 B3 7A -/
theorem test_packed : signCorr 12 (packedH3 0xAB 0xCD) = -1347 ∧ signCorr 12 (packedH4 0xEF 0xCD) = -260 ∧
    signCorr 12 (packedH3 0x12 0xB3) = 291 ∧ signCorr 12 (packedH4 0x7A 0xB3) = 1963 := by decide
/-- V2: the image of extreme values -/
theorem test_parse_extremes : parseCalibration
    [0xFF, 0xFF, 0x00, 0x80, 0xFF, 0xFF, 0x00, 0x00, 0xFF, 0x7F, 0x00, 0x80, 0xFF, 0xFF, 0x01, 0x00,
     0x00, 0x00, 0xFE, 0xFF, 0x00, 0x01, 0x00, 0xFF, 0xFF, 0x00, 0x80, 0x80, 0x80, 0xF0, 0xFF, 0x80] =
    ⟨65535, -32768, -1, 0, 32767, -32768, -1, 1, 0, -2, 256, -256, 255, -32768, 128, -2048, -1, -128⟩ := by decide
/-- V4 -/
theorem test_encoders : encCtrlHum 5 = 0x05 ∧ encCtrlMeas 1 1 0 = 0x24 ∧ encCtrlMeas 2 5 1 = 0x55 ∧
    encCtrlMeas 5 5 3 = 0xB7 ∧ encConfig 5 0 = 0xA0 ∧ encConfig 6 2 = 0xC8 ∧ encConfig 7 4 = 0xF0 := by decide
theorem test_decoders : decCtrlMeas 0x55 = (2, 5, 1) ∧ decConfig 0xC8 = (6, 2) ∧ decCtrlMeas 0xFF = (7, 7, 3) := by decide
/-- V6 -/
theorem test_durations : durationUs 0 0 0 = 2400 ∧ durationUs 1 1 1 = 9300 ∧ durationUs 2 5 1 = 20800 ∧
    durationUs 5 5 5 = 36900 := by decide
/-- V5, first and last row -/
theorem test_sample : (sampleOf [0x65, 0x5A, 0xC0, 0x7E, 0xED, 0x00, 0x5B, 0x30]).toData = 0x00655AC7EED05B30 ∧
    (sampleOf [0x80, 0x00, 0x0F, 0x7F, 0xFF, 0xF0, 0x12, 0x34]).toData = 0x00800007FFFF1234 := by decide
/-- R84, R110: the read addresses at the ends of the three blocks -/
theorem test_calibAddr : calibAddr 0 = 0x88 ∧ calibAddr 23 = 0x9F ∧ calibAddr 24 = 0xA1 ∧ calibAddr 25 = 0xE1 ∧
    calibAddr 31 = 0xE7 := by decide

/-! ## One step on a small state -/

/-- The coefficients of V1. -/
def cal1 : CalibrationData :=
  ⟨27504, 26435, -1000, 36477, -10685, 3024, 2855, 140, -7, 15500, -14600, 6000, 75, 1, 0, 21, 0, 30⟩

/-- The calibration image of V1, in read order. -/
def image1 : List Byte :=
  [0x70, 0x6B, 0x43, 0x67, 0x18, 0xFC, 0x7D, 0x8E, 0x43, 0xD6, 0xD0, 0x0B, 0x27, 0x0B, 0x8C, 0x00] ++
  [0xF9, 0xFF, 0x8C, 0x3C, 0xF8, 0xC6, 0x70, 0x17, 0x4B, 0x01, 0x00, 0x00, 0x01, 0x05, 0x00, 0x1E]

/-- A READY block (end state of P1) with these bus answers to come. -/
def readyWith (busIn : List BusReply) : State :=
  { State.reset with
    life := .ready, devAddr := 0x76, cal := some cal1, rawCal := image1
    mem := [(0xF2, 0x01), (0xF4, 0x24), (0xF5, 0xA0)]
    env := { host := [], busIn := busIn, delayIn := [.elapsed, .elapsed], draws := 0 } }

/-- The state after one step on the command word `w`. -/
def after (w : CmdWord) (s : State) : Option State :=
  match step (s.withFetchWord 16 w.toNat) with
  | .next t => some t
  | .fault _ => none
  | .refused _ => none

/-- What a test looks at. -/
def seen (o : Option State) : Option (Response × List Event × DeviceConfig) :=
  o.map (fun t => (t.resp, t.trace, t.cfg))

/-- A block after reset, with the answers of V1 to come. -/
def fresh1 : State :=
  { State.reset with env := { State.reset.env with busIn := image1.map .ok ++ [.ok 0, .ok 0, .ok 0] } }

/-- V1 and P1 line 1: the coefficients and the response. -/
theorem test_init : (after 0x0176 fresh1).map (fun t => (t.life, t.cal, t.devAddr, t.resp)) =
    some (.ready, some cal1, 0x76, ⟨0, 0⟩) := by decide
/-- P1 line 1: 35 transactions, the last three the writes of R122. -/
theorem test_init_trace : (after 0x0176 fresh1).map (fun t => (t.trace.length, t.trace.drop 32)) =
    some (35, [.write 0x76 0xF2 0x01, .write 0x76 0xF4 0x24, .write 0x76 0xF5 0xA0]) := by decide
/-- V8: the fifth read of INIT fails with 0x2A -/
theorem test_init_fails : (after 0x0176 { State.reset with env :=
      { State.reset.env with busIn := [.ok 0x70, .ok 0x6B, .ok 0x43, .ok 0x67, .fail 0x2A] } }).map
      (fun t => (t.life, t.resp, t.trace.drop 4)) =
    some (.unconstructed, ⟨1, 0x2A⟩, [.readFail 0x76 0x8C 0x2A]) := by decide
/-- V4: INIT 0x80 and V8: INIT when READY -/
theorem test_init_refused : seen (after 0x0180 State.reset) = some (⟨2, 0x80⟩, [], DeviceConfig.defaults) ∧
    seen (after 0x0176 (readyWith [])) = some (⟨4, 0⟩, [], DeviceConfig.defaults) := by decide
/-- V8: READ and 0x9900 before INIT -/
theorem test_unconstructed : seen (after 0x3000 State.reset) = some (⟨3, 0⟩, [], DeviceConfig.defaults) ∧
    seen (after 0x9900 State.reset) = some (⟨5, 0x9900⟩, [], DeviceConfig.defaults) := by decide
/-- P1 lines 2 to 5 -/
theorem test_getCoeff : ([0x2802, 0x2804, 0x280F, 0x2811].map fun w =>
      (after w (readyWith [])).map (fun t => t.resp.data)) =
    [some 0xFC18, some 0xD643, some 0x15, some 0x1E] := by decide
/-- V4: GET_COEFF 18 -/
theorem test_getCoeff_18 : seen (after 0x2812 (readyWith [])) = some (⟨2, 18⟩, [], DeviceConfig.defaults) := by decide
/-- P2 line 1 -/
theorem test_setOsrsH : seen (after 0x1005 (readyWith [.ok 0, .ok 0])) =
    some (⟨0, 0⟩, [.write 0x76 0xF2 0x05, .write 0x76 0xF4 0x24], { DeviceConfig.defaults with osrsH := 5 }) := by decide
/-- V8: the second write of SET_OSRS_H fails -/
theorem test_setOsrsH_second_fails : seen (after 0x1005 (readyWith [.ok 0, .fail 3])) =
    some (⟨1, 3⟩, [.write 0x76 0xF2 0x05, .writeFail 0x76 0xF4 0x24 3],
      { DeviceConfig.defaults with osrsH := 5 }) := by decide
/-- R146's example -/
theorem test_setOsrsT : seen (after 0x1102 (readyWith [.ok 0])) =
    some (⟨0, 0⟩, [.write 0x76 0xF4 0x44], { DeviceConfig.defaults with osrsT := 2 }) := by decide
/-- P4 line 6 -/
theorem test_setOsrsT_6 : seen (after 0x1106 (readyWith [.ok 0])) = some (⟨2, 6⟩, [], DeviceConfig.defaults) := by decide
/-- R147's example -/
theorem test_setOsrsP : seen (after 0x1205 (readyWith [.ok 0])) =
    some (⟨0, 0⟩, [.write 0x76 0xF4 0x34], { DeviceConfig.defaults with osrsP := 5 }) := by decide
/-- R171's examples and V8 -/
theorem test_setMode : seen (after 0x1303 (readyWith [.ok 0])) =
    some (⟨0, 0⟩, [.write 0x76 0xF4 0x27], { DeviceConfig.defaults with mode := 3 }) := by decide
theorem test_setMode_2 : seen (after 0x1302 (readyWith [])) = some (⟨2, 2⟩, [], DeviceConfig.defaults) := by decide
/-- R148's example -/
theorem test_setStandby : seen (after 0x1407 (readyWith [.ok 0])) =
    some (⟨0, 0⟩, [.write 0x76 0xF5 0xE0], { DeviceConfig.defaults with tSb := 7 }) := by decide
/-- R149's example, and V4's refusal -/
theorem test_setFilter : seen (after 0x1504 (readyWith [.ok 0])) =
    some (⟨0, 0⟩, [.write 0x76 0xF5 0xB0], { DeviceConfig.defaults with filter := 4 }) := by decide
theorem test_setFilter_5 : seen (after 0x1505 (readyWith [])) = some (⟨2, 5⟩, [], DeviceConfig.defaults) := by decide
/-- The getters after INIT (R152 to R156, R172) -/
theorem test_getters : ([0x2000, 0x2100, 0x2200, 0x2300, 0x2400, 0x2500].map fun w =>
      (after w (readyWith [])).map (fun t => (t.resp.status, t.resp.data))) =
    [some (0, 1), some (0, 1), some (0, 1), some (0, 0), some (0, 5), some (0, 0)] := by decide

/-- A READY block in Forced, with the data block of V5's first row to be read. -/
def forced1 : State :=
  { readyWith ([0x65, 0x5A, 0xC0, 0x7E, 0xED, 0x00, 0x5B, 0x30].map .ok) with
    cfg := { DeviceConfig.defaults with mode := 1 }, mem := [(0xF2, 0x01), (0xF4, 0x25), (0xF5, 0xA0)] }

/-- R177's example: Delay(9300), eight reads, the sample, and the auto-revert without a write. -/
theorem test_read_forced : (after 0x3000 forced1).map (fun t => (t.resp, t.cfg.mode, t.trace.take 1, t.trace.drop 8)) =
    some (⟨0, 0x00655AC7EED05B30⟩, 0, [.delay 9300], [.read 0x76 0xFE 0x30]) := by decide
/-- V8: the third read of a Forced READ fails; the mode stays Forced -/
theorem test_read_fails : seen (after 0x3000 { forced1 with env :=
      { forced1.env with busIn := [.ok 0, .ok 0, .fail 0x11] } }) =
    some (⟨1, 0x11⟩, [.delay 9300, .read 0x76 0xF7 0, .read 0x76 0xF8 0, .readFail 0x76 0xF9 0x11], forced1.cfg) := by
  decide
/-- V7 -/
theorem test_probes : ([0x00, 0x08, 0x01, 0x09, 0xF6, 0xFF].map fun (b : Byte) =>
      ((after 0x4000 (readyWith [.ok b])).map (fun t => t.resp.data),
       (after 0x4100 (readyWith [.ok b])).map (fun t => t.resp.data))) =
    [(some 0, some 0), (some 1, some 0), (some 0, some 1), (some 1, some 1), (some 0, some 0), (some 1, some 1)] := by
  decide
/-- R202's example -/
theorem test_chipId : seen (after 0x4200 (readyWith [.ok 0x60])) =
    some (⟨0, 0x60⟩, [.read 0x76 0xD0 0x60], DeviceConfig.defaults) := by decide
/-- P4 line 9 -/
theorem test_softReset : seen (after 0x5000 (readyWith [.ok 0])) =
    some (⟨0, 0⟩, [.write 0x76 0xE0 0xB6], DeviceConfig.defaults) := by decide

/-- A READ whose third answer is still to come leaves the block busy, and a command offered then is not taken (R38). -/
theorem test_busy : (after 0x3000 (readyWith [.ok 1, .ok 2, .pending])).map (fun t => (t.phase.length, t.data)) =
    some (7, [1, 2]) := by decide
/-- R250: `rst` in mid-command; no response, the transaction in flight abandoned. -/
theorem test_rst : (match step { readyWith [.pending] with phase := [.chipId], env :=
      { host := [.rst], busIn := [], delayIn := [], draws := 0 }, resp := ⟨0, 7⟩ } with
    | .next t => some (t.life, t.phase, t.resp, t.trace)
    | .fault _ => none
    | .refused _ => none) =
    some (.unconstructed, [], ⟨0, 0⟩, [.abandoned 0x76 (.read 0xD0)]) := by decide

/-- The state after one step on the register byte `b`. -/
def afterByte (b : Nat) (s : State) : Option State :=
  match step (s.withFetchWord 8 b) with
  | .next t => some t
  | .fault _ => none
  | .refused _ => none

/-- The register rows: one transaction each (R80, R81, R97). -/
theorem test_regRows : ([0x05, 0x55, 0xB6].map fun b => (afterByte b (readyWith [.ok 0])).map (fun t => t.trace)) =
    [some [.write 0x76 0xF2 0x05], some [.write 0x76 0xF4 0x55], some [.write 0x76 0xE0 0xB6]] := by decide
/-- R83: the status row is the read BUS answers with its byte. -/
theorem test_regStatus : (match exec (.regStatus 0 1 0 1) (readyWith []) with
    | .next t => some t.trace
    | .fault _ => none
    | .refused _ => none) = some [.read 0x76 0xF3 0x09] := by decide
theorem test_regConfig : (match exec (.regConfig 6 2) (readyWith [.ok 0]) with
    | .next t => some (t.trace, t.mem)
    | .fault _ => none
    | .refused _ => none) =
    some ([.write 0x76 0xF5 0xC8], [(0xF2, 0x01), (0xF4, 0x24), (0xF5, 0xC8)]) := by decide

/-- The state after `n` steps in which the host issues MEASURE first. -/
def afterMeasure (n : Nat) (s : State) : Option State :=
  match Host.Core.run Sys2Proof.core n (placeMeasure s) with
  | .next t => some t
  | .fault _ => none
  | .refused _ => none

/-- MEASURE (R96), P3 lines 1 and 3 with the default codes. -/
theorem test_measure : (afterMeasure 2 (readyWith (.ok 0 ::
      [0x65, 0x5A, 0xC0, 0x7E, 0xED, 0x00, 0x5B, 0x30].map .ok))).map
      (fun t => (t.resp.data, t.cfg.mode, t.trace.take 2)) =
    some (0x00655AC7EED05B30, 0, [.write 0x76 0xF4 0x25, .delay 9300]) := by decide
/-- R96: SET_MODE answered late; the READ follows its OK. -/
theorem test_measure_late : (afterMeasure 3 (readyWith (.pending :: .ok 0 ::
      [0x65, 0x5A, 0xC0, 0x7E, 0xED, 0x00, 0x5B, 0x30].map .ok))).map (fun t => (t.resp.data, t.cfg.mode, t.phase)) =
    some (0x00655AC7EED05B30, 0, []) := by decide
/-- R96: no READ after a SET_MODE that failed, nor after one that `rst` cut short. -/
theorem test_measure_fails : seen (afterMeasure 3 (readyWith [.fail 7, .ok 0])) =
      some (⟨1, 7⟩, [.writeFail 0x76 0xF4 0x25 7], DeviceConfig.defaults) ∧
    (afterMeasure 0 (readyWith [])).map (fun s => ({ s with phase := [.setMode 1, .respondOk], env :=
      { s.env with host := .rst :: s.env.host.drop 1 } } : State).takeReset.env.host) = some [] := by decide

/-- R62, R254: after INIT's three writes the sensor holds 01, 24, A0 with the humidity code in effect. -/
theorem test_sensorView : sensorView [.write 0x76 0xF2 0x01, .write 0x76 0xF4 0x24, .write 0x76 0xF5 0xA0] =
    ⟨some 0x01, some 0x24, some 0xA0, some 0x01, 0⟩ := by decide

/-- The states of these tests meet the invariant. -/
theorem test_inv : State.reset.inv && (readyWith []).inv && forced1.inv = true := by decide

/-! ## Witnesses: the hypotheses of each statement can be met

One state and operands per statement, and per clause at the ends of its range. -/

/-- A block in UNCONSTRUCTED on which the host issues `w`. -/
def freshWith (w : CmdWord) : State := { State.reset with env := { State.reset.env with host := [.cmd w] } }

/-- A block in READY on which the host issues `w`, with these bus answers to come. -/
def readyCmd (w : CmdWord) (busIn : List BusReply) : State :=
  { readyWith busIn with env := { (readyWith busIn).env with host := [.cmd w] } }

/-- A busy block: READ_CHIP_ID in flight. -/
def busy1 : State := { readyWith [.ok 0x60] with phase := [.chipId] }

/-- A block on which the host asserts `rst` while a read is in flight. -/
def resetting1 : State := { busy1 with env := { busy1.env with host := [.rst] } }

/-- The next state, if the step takes one. -/
def nextOf (o : Host.Outcome State Fault Refusal) : Option State :=
  match o with
  | .next t => some t
  | .fault _ => none
  | .refused _ => none

/-- EncodeDecodeRoundTrip -/
theorem test_wit_encodeDecode : decode (.command 0x2811) = .ok (.getCoeff 17) ∧
    decode (.regRead 0xF3 0xFF) = .ok (.regStatus 15 1 3 1) := by decide
/-- StepRunsTheDecodedCommand -/
theorem test_wit_stepRuns : (readyCmd 0x4200 [.ok 0x60]).phase = [] ∧
    (readyCmd 0x4200 [.ok 0x60]).env.host = [.cmd 0x4200] ∧ decode (.command 0x4200) = .ok .readChipId := by decide
/-- StepRunsThePlacedRegisterRow and RegisterRowsAreOneTransaction -/
theorem test_wit_row : (Instr.regCtrlHum 7).isCommand = false ∧ (readyWith [.ok 9]).phase = [] ∧
    (readyWith [.ok 9]).noReset = true ∧ (readyWith [.ok 9]).env.busReply = .ok 9 := by decide
/-- IllegalWordAnswersIllegalCommand, in both lifecycle states -/
theorem test_wit_illegalWord : (freshWith 0x3001).phase = [] ∧ (freshWith 0x3001).env.host = [.cmd 0x3001] ∧
    decode (.command 0x3001) = .error .argumentNotZero ∧ (readyCmd 0x9900 []).phase = [] ∧
    (readyCmd 0x9900 []).env.host = [.cmd 0x9900] ∧ decode (.command 0x9900) = .error .illegalOpcode := by decide
/-- BusyPortAcceptsNothing and CommandWhileBusyStops -/
theorem test_wit_busy : busy1.phase ≠ [] ∧ busy1.noReset = true ∧ Instr.read.isCommand = true := by decide
/-- IdleBlockWaits, at reset and in READY -/
theorem test_wit_waits : State.reset.phase = [] ∧ State.reset.env.host = [] ∧ (readyWith []).phase = [] ∧
    (readyWith []).env.host = [] := by decide
/-- HardResetAtAnyTime, in mid-command and idle -/
theorem test_wit_rst : resetting1.env.host = [.rst] ∧ resetting1.phase = [.chipId] ∧
    ({ resetting1 with phase := [] } : State).env.host = [.rst] := by decide
/-- NotConstructedBeforeInit, and the UNCONSTRUCTED clauses of every setter, getter and probe statement -/
theorem test_wit_unconstructed : State.reset.phase = [] ∧ State.reset.life = .unconstructed ∧
    Instr.read.isCommand = true ∧ ∀ arg, Instr.read ≠ .init arg := by
  refine ⟨rfl, rfl, rfl, ?_⟩
  intro arg h
  cases h
/-- SecondInitAnswersAlreadyConstructed, and the READY clauses without a bus answer -/
theorem test_wit_ready : (readyWith []).phase = [] ∧ (readyWith []).life = .ready ∧ (readyWith []).cfg.mode ≠ 1 ∧
    forced1.phase = [] ∧ forced1.life = .ready ∧ forced1.cfg.mode = 1 := by decide
/-- RejectedArgumentsChangeNothing and the setters' argument clauses: the values on both sides of each bound -/
theorem test_wit_arguments : 128 ≤ (0x80 : Byte).toNat ∧ 5 < (6 : Byte).toNat ∧ (5 : Byte).toNat ≤ 5 ∧
    ¬ ((2 : Byte) = 0 ∨ (2 : Byte) = 1 ∨ (2 : Byte) = 3) ∧ ((3 : Byte) = 0 ∨ (3 : Byte) = 1 ∨ (3 : Byte) = 3) ∧
    7 < (8 : Byte).toNat ∧ (7 : Byte).toNat ≤ 7 ∧ 4 < (5 : Byte).toNat ∧ (4 : Byte).toNat ≤ 4 ∧
    17 < (18 : Byte).toNat ∧ (17 : Byte).toNat ≤ 17 := by decide
/-- InitConstructs -/
theorem test_wit_init : fresh1.phase = [] ∧ fresh1.life = .unconstructed ∧ (0x7F : Byte).toNat < 128 ∧
    image1.length = 32 ∧ fresh1.env.answers (image1 ++ [0, 0, 0]) :=
  ⟨rfl, rfl, by decide, rfl, answers_listed fresh1.env (image1 ++ [0, 0, 0]) [] (by decide)⟩

/-- A block after reset whose INIT fails at the last of its 35 transactions. -/
def fresh2 : State :=
  { State.reset with env := { State.reset.env with busIn := (image1 ++ [0, 0]).map .ok ++ [.fail 0x2A] } }

/-- FailedInitStaysUnconstructed, at the first transaction (nothing before it) and at the last -/
theorem test_wit_initFails : fresh2.phase = [] ∧ fresh2.life = .unconstructed ∧ (image1 ++ [0, 0]).length < 35 ∧
    fresh2.env.answers (image1 ++ [0, 0]) ∧
    (fresh2.env.afterBusN (image1 ++ [0, 0]).length).busReply = .fail 0x2A ∧
    ({ fresh2.env with busIn := [.fail 1] } : Env).answers [] ∧
    ({ fresh2.env with busIn := [.fail 1] } : Env).busReply = .fail 1 :=
  ⟨rfl, rfl, by decide, answers_listed fresh2.env _ [.fail 0x2A] rfl, by decide, trivial, rfl⟩
/-- ParserFollowsTheLayout: the hypotheses define `n` and `signed`. -/
theorem test_wit_parser : ∃ (n : Nat → Int) (signed : Nat → Int → Int),
    (∀ i, n i = ((image1.getD i 0).toNat : Int)) ∧
    (∀ k x, signed k x = if x < 2 ^ (k - 1) then x else x - 2 ^ k) :=
  ⟨fun i => ((image1.getD i 0).toNat : Int), fun k x => if x < 2 ^ (k - 1) then x else x - 2 ^ k,
    fun _ => rfl, fun _ _ => rfl⟩
/-- ParseAfterPack, PackAfterParse, ParsedCoefficientsAreInRange, GetCoeffReadsTheCoefficient -/
theorem test_wit_coefficients : cal1.inRange = true ∧ image1.length = 32 ∧ (readyWith []).cal = some cal1 := by decide
/-- EncodersPlaceTheFields and DurationFormula at the greatest legal codes, DecodersInvertTheEncoders -/
theorem test_wit_codes : (5 : Byte).toNat ≤ 5 ∧ (3 : Byte).toNat ≤ 3 ∧ (7 : Byte).toNat ≤ 7 ∧ (4 : Byte).toNat ≤ 4 ∧
    (7 : Byte).extractLsb' 3 5 = 0 ∧ (0xFC : Byte).extractLsb' 0 2 = 0 := by decide
/-- The setters, the probes and SOFT_RESET: answered, failing at once, failing at SET_OSRS_H's second write -/
theorem test_wit_answers : (readyWith [.ok 1, .ok 2]).env.answers [1, 2] ∧
    (readyWith [.fail 7]).env.busReply = .fail 7 ∧ (readyWith [.ok 1, .fail 7]).env.busReply = .ok 1 ∧
    (readyWith [.ok 1, .fail 7]).env.afterBus.busReply = .fail 7 :=
  ⟨answers_listed (readyWith [.ok 1, .ok 2]).env [1, 2] [] rfl, rfl, rfl, rfl⟩
/-- GettersReadTheShadow and ProbesAndSoftReset: an argument that is not 0 -/
theorem test_wit_argNotZero : (1 : Byte) ≠ 0 ∧ (0xFF : Byte) ≠ 0 := by decide
/-- ForcedReadWaitsAndReverts -/
theorem test_wit_forcedRead : forced1.env.delayReply = .elapsed ∧
    forced1.env.afterDelay.answers [0x65, 0x5A, 0xC0, 0x7E, 0xED, 0x00, 0x5B, 0x30] :=
  ⟨rfl, answers_listed forced1.env.afterDelay [0x65, 0x5A, 0xC0, 0x7E, 0xED, 0x00, 0x5B, 0x30] [] rfl⟩
/-- UnforcedReadOnlyReads, in Sleep and in Normal -/
theorem test_wit_unforcedRead : (readyWith []).cfg.mode = 0 ∧ (readyWith []).cfg.mode ≠ 1 ∧
    ({ readyWith [] with cfg := { DeviceConfig.defaults with mode := 3 } } : State).cfg.mode ≠ 1 ∧
    (readyWith (image1.take 8 |>.map .ok)).env.answers (image1.take 8) :=
  ⟨rfl, by decide, by decide, answers_listed (readyWith (image1.take 8 |>.map .ok)).env (image1.take 8) [] (by decide)⟩
/-- FailedReadKeepsTheMode: the last read fails in Sleep, the first in Forced -/
theorem test_wit_failedRead : (image1.take 7).length < 8 ∧
    (readyWith ((image1.take 7).map .ok ++ [.fail 3])).env.answers (image1.take 7) ∧
    ((readyWith ((image1.take 7).map .ok ++ [.fail 3])).env.afterBusN 7).busReply = .fail 3 ∧
    ({ forced1.env with busIn := [.fail 3] } : Env).delayReply = .elapsed ∧
    ({ forced1.env with busIn := [.fail 3] } : Env).afterDelay.busReply = .fail 3 :=
  ⟨by decide, answers_listed (readyWith ((image1.take 7).map .ok ++ [.fail 3])).env _ [.fail 3] rfl, by decide, rfl, rfl⟩
/-- OnlyInitWritesTheInstance, ShadowFrame, RegisterSpaceFrame, CommandTrafficIsBounded, FailedTransactionIsTheLast: an
`exec` that answers a next state, and an address no write of it carries -/
theorem test_wit_frames : (nextOf (exec (.setOsrsT 2) (readyWith [.ok 0]))).isSome = true ∧
    (Instr.setOsrsT 2).isCommand = true ∧ 0xF5 ∉ (storedAddrs (.setOsrsT 2)).map BitVec.toNat := by decide
/-- LateAnswersOnlyDelay: SET_OSRS_H blocked on its second write, READ blocked on its delay; FailedTransactionIsTheLast:
READ whose second answer is a failure -/
theorem test_wit_late : (nextOf (exec (.setOsrsH 5) (readyWith [.ok 1, .pending, .ok 2]))).map
      (fun t => (t.phase, t.env.busIn)) = some ([.pushMeas, .respondOk], [.ok 2]) ∧
    (nextOf (exec .read { forced1 with env := { forced1.env with delayIn := [.pending, .elapsed] } })).map
      (fun t => (t.phase.length, t.env.delayIn)) = some (10, [.elapsed]) ∧
    (nextOf (exec .read (readyWith [.ok 0, .fail 1]))).map (fun t => (t.phase, t.trace.map Event.failed)) =
      some ([], [false, true]) := by decide
/-- StepKeepsTheInvariant, StepKeepsTheTraceInTheMap, CoefficientsNeverChangeWhileReady: a READY block that meets the
invariant, takes a step and is still READY -/
theorem test_wit_invariant : (readyCmd 0x1105 [.ok 0]).inv = true ∧ (readyCmd 0x1105 [.ok 0]).traceOk = true ∧
    (nextOf (step (readyCmd 0x1105 [.ok 0]))).map (fun t => (t.life, t.inv, t.traceOk)) = some (.ready, true, true) := by
  decide

/-- `fresh1` on which the host issues INIT 0x76. -/
def fresh1Cmd : State := { fresh1 with env := { fresh1.env with host := [.cmd 0x0176] } }

/-- LifecycleTransitions: a step that enters READY, and one that leaves it -/
theorem test_wit_lifecycle : fresh1Cmd.inv = true ∧ fresh1Cmd.life = .unconstructed ∧
    (nextOf (step fresh1Cmd)).map State.life = some .ready := by decide
theorem test_wit_leavesReady : resetting1.inv = true ∧ resetting1.life = .ready ∧
    (nextOf (step resetting1)).map State.life = some .unconstructed := by decide

/-- `fresh1` with its last write still in flight: the rest of an INIT. -/
def midInit : State :=
  { fresh1 with
    phase := (calibReads ++ initTail).drop 35, cal := some cal1, rawCal := image1
    mem := [(0xF2, 0x01), (0xF4, 0x24)], env := { fresh1.env with busIn := [.ok 0] } }

/-- LifecycleTransitions: a step that goes on with an INIT and enters READY -/
theorem test_wit_midInit : midInit.inv = true ∧ midInit.life = .unconstructed ∧ midInit.phase ≠ [] ∧
    (nextOf (step midInit)).map State.life = some .ready := by decide

/-- A READY block with the write of SET_MODE normal in flight. -/
def midSetMode : State := { readyWith [.ok 0] with phase := [.setMode 3, .respondOk] }

/-- A Forced READY block with the last read of a READ in flight. -/
def midRead : State :=
  { forced1 with
    phase := (readSteps true).drop 8, data := [1, 2, 3, 4, 5, 6, 7], env := { forced1.env with busIn := [.ok 8] } }

/-- ModeChangesOnlyBySetModeOrRead: resumed -/
theorem test_wit_modeResumed : midSetMode.inv = true ∧ midSetMode.life = .ready ∧
    (nextOf (step midSetMode)).map (fun t => (t.life, t.cfg.mode)) = some (.ready, 3) ∧ midRead.inv = true ∧
    midRead.life = .ready ∧ (nextOf (step midRead)).map (fun t => (t.life, t.cfg.mode)) = some (.ready, 0) := by decide
/-- ModeChangesOnlyBySetModeOrRead: SET_MODE normal -/
theorem test_wit_setMode : (readyCmd 0x1303 [.ok 0]).inv = true ∧ (readyCmd 0x1303 [.ok 0]).life = .ready ∧
    (nextOf (step (readyCmd 0x1303 [.ok 0]))).map (fun t => (t.life, t.cfg.mode)) = some (.ready, 3) := by decide

/-- `forced1` on which the host issues READ. -/
def forced1Cmd : State := { forced1 with env := { forced1.env with host := [.cmd 0x3000] } }

/-- ModeChangesOnlyBySetModeOrRead's other case, and ShadowPartsOnlyByAutoRevert: READ in Forced -/
theorem test_wit_autoRevert : forced1Cmd.inv = true ∧ forced1Cmd.phase = [] ∧ forced1Cmd.life = .ready ∧
    forced1Cmd.shadowExact = true ∧
    (nextOf (step forced1Cmd)).map (fun t => (t.life, t.cfg.mode, t.shadowExact)) = some (.ready, 0, false) := by decide
/-- UnconstructedRegistersAreUnobservable: two different states -/
theorem test_wit_sameButInit :
    sameButInit (freshWith 0x0176) { freshWith 0x0176 with devAddr := 0x77, cal := some cal1, rawCal := image1 } = true ∧
    (freshWith 0x0176).life = .unconstructed ∧ (freshWith 0x0176).phase = [] := by decide
/-- MeasureDeliversOneSample -/
theorem test_wit_measure : (readyWith (.ok 0 :: (image1.take 8).map .ok)).env.busReply = .ok 0 ∧
    (readyWith (.ok 0 :: (image1.take 8).map .ok)).env.afterBus.delayReply = .elapsed ∧
    (readyWith (.ok 0 :: (image1.take 8).map .ok)).env.afterBus.afterDelay.answers (image1.take 8) :=
  ⟨rfl, rfl, answers_listed (readyWith (.ok 0 :: (image1.take 8).map .ok)).env.afterBus.afterDelay _ [] rfl⟩
/-- MeasureReadsOnlyAfterOk: the failing, the late and the UNCONSTRUCTED clause -/
theorem test_wit_measureReads : (readyWith [.fail 7]).env.busReply = .fail 7 ∧
    (readyWith [.pending, .ok 0]).env.busReply = .pending ∧
    (readyWith [.pending, .ok 0]).env.afterBus.busReply = .ok 0 ∧ (readyWith [.pending, .ok 0]).phase = [] ∧
    (readyWith [.pending, .ok 0]).life = .ready ∧ State.reset.phase = [] ∧ State.reset.life = .unconstructed := by decide

/-- A block on which the host waits to issue READ_CHIP_ID after an OK; the response has this status. -/
def followUp (status : BitVec 4) : State :=
  { readyWith [.ok 0x60] with
    resp := ⟨status, 0⟩, env := { (readyWith [.ok 0x60]).env with host := [.cmdIfOk 0x4200] } }

/-- FollowUpIsNotIssuedAfterAnError, and the other case of StepRunsTheDecodedCommand and
IllegalWordAnswersIllegalCommand -/
theorem test_wit_followUp : (followUp 1).phase = [] ∧ (followUp 1).env.host = [.cmdIfOk 0x4200] ∧
    (followUp 1).resp.status ≠ 0 ∧ (followUp 0).env.host = [.cmdIfOk 0x4200] ∧ (followUp 0).resp.status = 0 ∧
    (followUp 0).issued = some 0x4200 ∧ (followUp 1).issued = none := by decide
/-- AssemblerWords: the greatest opcode and operand, a row with an operand and one without, a name, a number, and an
operand without a blank -/
theorem test_wit_assembler : (255 : Nat) < 256 ∧ rowWith "SET_MODE" 0x13 modeNames ∈ asmRows ∧
    rowBare "READ" 0x30 ∈ asmRows ∧ ("forced".toList, 1) ∈ modeNames ∧
    asmOperand (rowWith "SET_MODE" 0x13 modeNames) "0xff".toList = some 255 ∧
    modeNames.lookup "0xff".toList = none ∧ parseNumber "256".toList = some 256 ∧ "0xff".toList ≠ [] ∧
    ∀ c ∈ ['0', 'x', 'f', 'f'], c ≠ ' ' ∧ c ≠ '\t' ∧ c ≠ ';' := by
  refine ⟨by decide, ?_, ?_, by decide, by decide, by decide, by decide, by decide, by simp⟩
  · exact List.mem_append_left _ (by simp)
  · exact List.mem_append_right _ (by simp)
/-- InitSettlesTheSensor and SetOsrsHCommitsHumidity -/
theorem test_wit_sensor : (nextOf (exec (.init 0x76) fresh1)).map State.life = some .ready ∧
    (nextOf (exec (.setOsrsH 5) (readyWith [.ok 0, .ok 0]))).map (fun t => (t.phase, t.resp.status)) = some ([], 0) := by
  decide

end Sys2Proof.Tests
end

section
/-! PROOFS. A failed transaction ends its command (spec/20_memory.md R70): what each layer of the block, from one request
up to one instruction, adds to the trace. -/

namespace Sys2Proof.Machine

/-! ## What an operation adds to the trace -/

/-- An answered request adds one entry that is no failure, a failed one adds one entry, and one that is still to be
answered adds none. -/
theorem ask_trace_cases (r : Request) (s : State) :
    (∃ b s' ev, ask r s = .done b s' ∧ s'.trace = s.trace ++ [ev] ∧ ev.failed = false) ∨
    (∃ f s' ev, ask r s = .failed f s' ∧ s'.trace = s.trace ++ [ev]) ∨
    (∃ s', ask r s = .blocked s' ∧ s'.trace = s.trace) := by
  cases r with
  | read a =>
    obtain ⟨b, -, ha⟩ | ⟨f, -, ha⟩ | ⟨-, ha⟩ := ask_read_cases a s
    · exact .inl ⟨b, _, _, ha, rfl, rfl⟩
    · exact .inr (.inl ⟨f, _, _, ha, rfl⟩)
    · exact .inr (.inr ⟨_, ha, rfl⟩)
  | write a x =>
    obtain ⟨_, -, ha⟩ | ⟨f, -, ha⟩ | ⟨-, ha⟩ := ask_write_cases a x s
    · exact .inl ⟨0, _, _, ha, rfl, rfl⟩
    · exact .inr (.inl ⟨f, _, _, ha, rfl⟩)
    · exact .inr (.inr ⟨_, ha, rfl⟩)
  | delay us =>
    obtain ⟨-, ha⟩ | ⟨-, ha⟩ := ask_delay_cases us s
    · exact .inl ⟨0, _, _, ha, rfl, rfl⟩
    · exact .inr (.inr ⟨_, ha, rfl⟩)

@[simp] theorem complete_trace (m : Micro) (b : Byte) (s : State) : (m.complete b s).trace = s.trace := by
  cases m <;> rfl

@[simp] theorem transportError_trace (f : Token) (s : State) : (transportError f s).trace = s.trace := by
  unfold transportError
  split <;> rfl

@[simp] theorem transportError_phase (f : Token) (s : State) : (transportError f s).phase = [] := by
  unfold transportError
  split <;> rfl

/-! ## A failure is the last entry -/

/-- `t` extends the trace `tr` by entries of which only the last may be a failure, and then nothing of the command
remains in `t`. -/
def FailsOnlyLast (tr : List Event) (t : State) : Prop :=
  ∃ evs, t.trace = tr ++ evs ∧ (∀ ev ∈ evs.dropLast, ev.failed = false) ∧
    (∀ ev ∈ evs.getLast?, ev.failed = true → t.phase = [])

theorem FailsOnlyLast.of_trace_eq {tr : List Event} {t : State} (h : t.trace = tr) : FailsOnlyLast tr t :=
  ⟨[], by simp [h], by simp, by simp⟩

theorem FailsOnlyLast.of_phase_nil {tr : List Event} {t : State} {ev : Event} (h : t.trace = tr ++ [ev])
    (hp : t.phase = []) : FailsOnlyLast tr t :=
  ⟨[ev], h, by simp, fun _ _ _ => hp⟩

/-- An entry that is no failure may come before. -/
theorem FailsOnlyLast.cons {tr : List Event} {t : State} {ev : Event} (hev : ev.failed = false)
    (h : FailsOnlyLast (tr ++ [ev]) t) : FailsOnlyLast tr t := by
  obtain ⟨evs, htr, hinit, hlast⟩ := h
  refine ⟨ev :: evs, by simp [htr], ?_, ?_⟩
  · cases evs with
    | nil => simp
    | cons e es => simpa [hev] using hinit
  · cases evs with
    | nil => simp [hev]
    | cons e es => simpa using hlast

/-- The sequencer goes past a micro-step only when its request was answered without a failure. -/
theorem run_failsOnlyLast (ms : List Micro) (s : State) : FailsOnlyLast s.trace (run ms s) := by
  induction ms generalizing s with
  | nil => exact .of_trace_eq rfl
  | cons m ms ih =>
    cases hr : m.request s with
    | none => simpa [run_internal ms hr] using ih (m.complete 0 s)
    | some r =>
      obtain ⟨b, s', ev, ha, htr, hev⟩ | ⟨f, s', ev, ha, htr⟩ | ⟨s', ha, htr⟩ := ask_trace_cases r s
      · rw [run_done ms hr ha]
        exact .cons hev (by simpa [htr] using ih (m.complete b s'))
      · rw [run_failed ms hr ha]
        exact .of_phase_nil (by simpa using htr) (by simp)
      · rw [run_blocked ms hr ha]
        exact .of_trace_eq htr

/-! ## What an instruction can do -/

/-- What an instruction makes of `s`: a response alone, or a run of micro-steps from a state with the same trace. -/
inductive Accepted (s : State) : State → Prop where
  | responds (st : Status) (d : BitVec 64) : Accepted s (respond st d s)
  | runs (ms : List Micro) {u : State} (hu : u.trace = s.trace) : Accepted s (run ms u)

theorem Accepted.whenReady {s t : State} (h : Accepted s t) : Accepted s (whenReady s t) := by
  cases hl : s.life with
  | ready => rwa [whenReady_ready t hl]
  | unconstructed => rw [whenReady_unconstructed t hl]; exact .responds _ _

theorem Accepted.whenLegal {s t : State} (legal : Bool) (arg : Byte) (h : Accepted s t) :
    Accepted s (whenLegal legal arg s t) := by
  cases legal with
  | true => exact h
  | false => exact .responds _ _

/-- A command's next state is the one its checks and micro-steps give. -/
theorem whenIdle_next {s t u : State} (h : whenIdle s u = .next t) : u = t := by
  unfold whenIdle at h
  split at h <;> cases h
  rfl

theorem execInit_accepted {arg : Byte} {s t : State} (h : execInit arg s = .next t) : Accepted s t := by
  rw [← whenIdle_next h]
  cases s.life with
  | ready => exact .responds _ _
  | unconstructed => exact .whenLegal _ _ (.runs _ rfl)

theorem exec_accepted {i : Instr} {s t : State} (h : exec i s = .next t) : Accepted s t := by
  cases i with
  | init arg => exact execInit_accepted h
  | setOsrsH arg | setOsrsT arg | setOsrsP arg | setMode arg | setStandby arg | setFilter arg =>
    rw [← whenIdle_next h]
    exact .whenReady (.whenLegal _ _ (.runs _ rfl))
  | getCoeff arg =>
    rw [← whenIdle_next h]
    exact .whenReady (.whenLegal _ _ (.responds _ _))
  | getOsrsH | getOsrsT | getOsrsP | getMode | getStandby | getFilter =>
    rw [← whenIdle_next h]
    exact .whenReady (.responds _ _)
  | read | getMeasuring | getImUpdate | readChipId | softReset =>
    rw [← whenIdle_next h]
    exact .whenReady (.runs _ rfl)
  | regCtrlHum _ | regCtrlMeas _ _ _ | regConfig _ _ | regStatus _ _ _ _ | regReset =>
    cases h
    exact .runs _ rfl

theorem Accepted.failsOnlyLast {s t : State} (h : Accepted s t) : FailsOnlyLast s.trace t := by
  cases h with
  | responds st d => exact .of_trace_eq rfl
  | runs ms hu => exact hu ▸ run_failsOnlyLast ms _

/-- Settles O46: the sequencer stops at the first failure (`run_failsOnlyLast`), and every instruction is a response or a
run of the sequencer (`exec_accepted`). -/
theorem failedTransactionIsTheLast : Obligations.FailedTransactionIsTheLast := by
  rintro s t (⟨i, h⟩ | rfl)
  · exact (exec_accepted h).failsOnlyLast
  · exact run_failsOnlyLast s.phase s

end Sys2Proof.Machine
end

section
/-! PROOFS. The calibration reads of INIT (spec/40_calibration.md R110). -/

namespace Sys2Proof.Machine

theorem mem_calibReads {m : Micro} : m ∈ calibReads ↔ ∃ i < 32, m = .readCal i := by
  simp [calibReads, eq_comm]

/-- What the calibration reads ask for depends on their indices alone. -/
theorem calibReads_requests (s : State) :
    calibReads.map (fun m => m.request s) =
      ((List.range 32).map calibAddr).map (fun a => some (Request.read a)) := by
  rw [calibReads, List.map_map, List.map_map]
  rfl

/-- Settles O19: the requests are reads of `calibAddr` at 0 to 31 (`calibReads_requests`), 32 addresses to compare with
the list of R110, and a calibration read stores nothing but its byte. -/
theorem calibrationReadAddresses : Obligations.CalibrationReadAddresses := by
  constructor
  · rw [calibReads_requests]
    exact congrArg (List.map _) (by decide)
  · intro m hm b s
    obtain ⟨i, -, rfl⟩ := mem_calibReads.mp hm
    rfl

end Sys2Proof.Machine
end

section
/-! PROOFS. The encoders of the codec (spec/41_codec_config.md R140, R141, R142). -/

namespace Sys2Proof.Machine

/-- A field shifted above the bits of another stands beside it: the `or` is a sum. -/
theorem toNat_shiftLeft_or {x y : Byte} {n : Nat} (hx : x.toNat * 2 ^ n < 2 ^ 8) (hy : y.toNat < 2 ^ n) :
    (x <<< n ||| y).toNat = 2 ^ n * x.toNat + y.toNat := by
  have hshift : (x <<< n).toNat = x.toNat <<< n := by
    rw [BitVec.toNat_shiftLeft, Nat.shiftLeft_eq, Nat.mod_eq_of_lt hx]
  rw [BitVec.toNat_or, hshift, ← Nat.shiftLeft_add_eq_or_of_lt hy, Nat.shiftLeft_eq, Nat.mul_comm]

/-- R140. -/
theorem toNat_encCtrlHum (h : Byte) : (encCtrlHum h).toNat = h.toNat % 8 := by
  rw [encCtrlHum, BitVec.toNat_and]
  exact Nat.and_two_pow_sub_one_eq_mod h.toNat 3

/-- R141, for all codes that fit their fields, not the legal ones alone. -/
theorem toNat_encCtrlMeas {t p m : Byte} (ht : t.toNat < 8) (hp : p.toNat < 8) (hm : m.toNat < 4) :
    (encCtrlMeas t p m).toNat = 32 * t.toNat + 4 * p.toNat + m.toNat := by
  have hlow : (p <<< 2 ||| m).toNat = 4 * p.toNat + m.toNat := toNat_shiftLeft_or (by omega) hm
  have hall : (t <<< 5 ||| (p <<< 2 ||| m)).toNat = 32 * t.toNat + (p <<< 2 ||| m).toNat :=
    toNat_shiftLeft_or (by omega) (by omega)
  rw [encCtrlMeas, BitVec.or_assoc, hall, hlow, Nat.add_assoc]

/-- R142: the config byte has the fields of a ctrl-meas byte whose mode is 0. -/
theorem toNat_encConfig {sb f : Byte} (hsb : sb.toNat < 8) (hf : f.toNat < 8) :
    (encConfig sb f).toNat = 32 * sb.toNat + 4 * f.toNat :=
  toNat_encCtrlMeas (m := 0) hsb hf (by decide)

/-- Settles O26: every legal code fits its field, and a field shifted above the bits of the others adds to them
(`toNat_shiftLeft_or`). -/
theorem encodersPlaceTheFields : Obligations.EncodersPlaceTheFields := by
  intro a b m
  refine ⟨toNat_encCtrlHum a, fun ha hb hm => ?_, fun ha hb => ?_⟩
  · exact toNat_encCtrlMeas (by omega) (by omega) (by omega)
  · exact toNat_encConfig (by omega) (by omega)

end Sys2Proof.Machine
end

section
/-! PROOFS. The sample words (spec/42_mode_read.md R178). -/

namespace Sys2Proof.Machine

/-- `toNat_shiftLeft_or` for words of every width: the sample words are wider than a byte. -/
theorem toNat_shiftLeft_or_of_width {w n : Nat} {x y : BitVec w} (hx : x.toNat * 2 ^ n < 2 ^ w)
    (hy : y.toNat < 2 ^ n) : (x <<< n ||| y).toNat = 2 ^ n * x.toNat + y.toNat := by
  have hshift : (x <<< n).toNat = x.toNat <<< n := by
    rw [BitVec.toNat_shiftLeft, Nat.shiftLeft_eq, Nat.mod_eq_of_lt hx]
  rw [BitVec.toNat_or, hshift, ← Nat.shiftLeft_add_eq_or_of_lt hy, Nat.shiftLeft_eq, Nat.mul_comm]

/-- R178: the high nibble of the third byte is its quotient by 16, so its low nibble is lost. -/
theorem toNat_raw20 (b0 b1 b2 : Byte) :
    (raw20 b0 b1 b2).toNat = 4096 * b0.toNat + 16 * b1.toNat + b2.toNat / 16 := by
  have hb0 : (b0.setWidth 20).toNat = b0.toNat := BitVec.toNat_setWidth_of_le (by decide)
  have hb1 : (b1.setWidth 20).toNat = b1.toNat := BitVec.toNat_setWidth_of_le (by decide)
  have hb2 : (b2.setWidth 20 >>> 4).toNat = b2.toNat / 16 := by
    rw [BitVec.toNat_ushiftRight, BitVec.toNat_setWidth_of_le (by decide), Nat.shiftRight_eq_div_pow]
  have hlow : (b1.setWidth 20 <<< 4 ||| b2.setWidth 20 >>> 4).toNat = 16 * b1.toNat + b2.toNat / 16 := by
    rw [toNat_shiftLeft_or_of_width (by omega) (by omega)]
    omega
  rw [raw20, BitVec.or_assoc, toNat_shiftLeft_or_of_width (by omega) (by omega)]
  omega

/-- R178. -/
theorem toNat_raw16 (b6 b7 : Byte) : (raw16 b6 b7).toNat = 256 * b6.toNat + b7.toNat := by
  have hb6 : (b6.setWidth 16).toNat = b6.toNat := BitVec.toNat_setWidth_of_le (by decide)
  have hb7 : (b7.setWidth 16).toNat = b7.toNat := BitVec.toNat_setWidth_of_le (by decide)
  rw [raw16, toNat_shiftLeft_or_of_width (by omega) (by omega)]
  omega

/-- Settles O39: `sampleOf` hands each word its own bytes, and `toNat_raw20` and `toNat_raw16` give the sums. -/
theorem sampleAssembly : Obligations.SampleAssembly := by
  intro d0 d1 d2 d3 d4 d5 d6 d7
  exact ⟨_, rfl, toNat_raw20 d0 d1 d2, toNat_raw20 d3 d4 d5, toNat_raw16 d6 d7⟩

end Sys2Proof.Machine
end

section
/-! PROOFS. The argument check (spec/60_exceptions.md R223): what each legality test refuses, and what a refused argument
makes of the state. -/

namespace Sys2Proof.Machine

/-! ## What each test refuses -/

theorem oversamplingLegal_eq_false {arg : Byte} : oversamplingLegal arg = false ↔ 5 < arg.toNat := by
  simp [oversamplingLegal]

theorem standbyLegal_eq_false {arg : Byte} : standbyLegal arg = false ↔ 7 < arg.toNat := by
  simp [standbyLegal]

theorem filterLegal_eq_false {arg : Byte} : filterLegal arg = false ↔ 4 < arg.toNat := by
  simp [filterLegal]

theorem coeffIndexLegal_eq_false {arg : Byte} : coeffIndexLegal arg = false ↔ 17 < arg.toNat := by
  simp [coeffIndexLegal]

theorem modeLegal_eq_false {arg : Byte} :
    modeLegal arg = false ↔ arg.toNat ≠ 0 ∧ arg.toNat ≠ 1 ∧ arg.toNat ≠ 3 := by
  simp [modeLegal, ← BitVec.toNat_inj, and_assoc]

/-- Bit 7 of a byte is its sign bit. -/
theorem addressLegal_eq_false {arg : Byte} : addressLegal arg = false ↔ 128 ≤ arg.toNat := by
  have hbit : arg.getLsbD 7 = decide (128 ≤ arg.toNat) := arg.msb_eq_getLsbD_last.symm.trans arg.msb_eq_decide
  rw [addressLegal, hbit]
  simp

/-! ## What a refused argument does -/

/-- In an idle block a response changes the response register alone. -/
theorem respond_idle {s : State} (st : Status) (d : BitVec 64) (hidle : s.phase = []) :
    respond st d s = { s with resp := ⟨st.code, d⟩ } := by
  rw [respond, ← hidle]

/-- The check does not reach the work `t` of the command. -/
theorem whenLegal_refused {s : State} {legal : Bool} {arg : Byte} (t : State) (hidle : s.phase = [])
    (hlegal : legal = false) : whenLegal legal arg s t = { s with resp := ⟨2, arg.setWidth 64⟩ } := by
  subst hlegal
  exact respond_idle .invalidConfigValue (arg.setWidth 64) hidle

/-- The checks that every command with an argument but INIT makes, in their order (R227). -/
theorem whenReady_whenLegal_refused {s : State} {legal : Bool} {arg : Byte} (t : State) (hidle : s.phase = [])
    (hready : s.life = .ready) (hlegal : legal = false) :
    whenIdle s (whenReady s (whenLegal legal arg s t)) = .next { s with resp := ⟨2, arg.setWidth 64⟩ } := by
  rw [whenIdle_idle _ hidle, whenReady_ready _ hready, whenLegal_refused t hidle hlegal]

/-- INIT checks its argument in UNCONSTRUCTED (R111). -/
theorem execInit_unconstructed {s : State} (arg : Byte) (hlife : s.life = .unconstructed) :
    execInit arg s = whenIdle s (whenLegal (addressLegal arg) arg s
      (run (calibReads ++ initTail) { s with devAddr := argDevAddr arg, rawCal := [] })) := by
  simp only [execInit, hlife]

theorem execInit_refused {s : State} {arg : Byte} (hidle : s.phase = []) (hlife : s.life = .unconstructed)
    (hlegal : addressLegal arg = false) : execInit arg s = .next { s with resp := ⟨2, arg.setWidth 64⟩ } := by
  rw [execInit_unconstructed arg hlife, whenIdle_idle _ hidle, whenLegal_refused _ hidle hlegal]

/-- Settles O16: each bound is the refusal of the command's own legality test, and a refused argument ends the command
before its work (`execInit_refused` for INIT, `whenReady_whenLegal_refused` for the others). -/
theorem rejectedArgumentsChangeNothing : Obligations.RejectedArgumentsChangeNothing := by
  intro s arg hidle
  refine ⟨fun hlife harg => ?init, fun hready harg => ?oversampling, fun hready h0 h1 h3 => ?mode,
    fun hready harg => ?standby, fun hready harg => ?filter, fun hready harg => ?coeff⟩
  case init => exact execInit_refused hidle hlife (addressLegal_eq_false.mpr harg)
  case oversampling =>
    have hlegal := oversamplingLegal_eq_false.mpr harg
    exact ⟨whenReady_whenLegal_refused _ hidle hready hlegal, whenReady_whenLegal_refused _ hidle hready hlegal,
      whenReady_whenLegal_refused _ hidle hready hlegal⟩
  case mode => exact whenReady_whenLegal_refused _ hidle hready (modeLegal_eq_false.mpr ⟨h0, h1, h3⟩)
  case standby => exact whenReady_whenLegal_refused _ hidle hready (standbyLegal_eq_false.mpr harg)
  case filter => exact whenReady_whenLegal_refused _ hidle hready (filterLegal_eq_false.mpr harg)
  case coeff => exact whenReady_whenLegal_refused _ hidle hready (coeffIndexLegal_eq_false.mpr harg)

end Sys2Proof.Machine
end

section
/-! PROOFS. Decode and encode (spec/30_encoding.md R80 to R83, R86, R92, R97): the two halves of a command word, and the
fields of a register byte. -/

namespace Sys2Proof

@[simp] theorem opOf_commandWord (op arg : Byte) : opOf (commandWord op arg) = op :=
  BitVec.extractLsb'_append_eq_left

@[simp] theorem argOf_commandWord (op arg : Byte) : argOf (commandWord op arg) = arg :=
  BitVec.extractLsb'_append_eq_right

theorem commandWord_opOf_argOf (w : CmdWord) : commandWord (opOf w) (argOf w) = w :=
  BitVec.extractLsb'_append_extractLsb' (len := 8)

@[simp] theorem noArg_zero (i : Instr) : noArg 0#8 i = .ok i := rfl

theorem noArg_eq_ok {arg : Byte} {i j : Instr} : noArg arg i = .ok j ↔ arg = 0 ∧ i = j := by
  unfold noArg
  split <;> simp_all

/-! ## The fields of a register byte -/

/-- Bits 7:5 of `tttpppmm` (R81, R82). -/
@[simp] theorem fields332_high (t p : BitVec 3) (m : BitVec 2) : (t ++ p ++ m).extractLsb' 5 3 = t :=
  (BitVec.extractLsb'_append_eq_of_le (by decide)).trans BitVec.extractLsb'_append_eq_left

/-- Bits 4:2 of `tttpppmm` (R81, R82). -/
@[simp] theorem fields332_middle (t p : BitVec 3) (m : BitVec 2) : (t ++ p ++ m).extractLsb' 2 3 = p :=
  (BitVec.extractLsb'_append_eq_of_le (by decide)).trans BitVec.extractLsb'_append_eq_right

/-- Bits 1:0 of `tttpppmm` (R81, R82). -/
@[simp] theorem fields332_low (t p : BitVec 3) (m : BitVec 2) : (t ++ p ++ m).extractLsb' 0 2 = m :=
  BitVec.extractLsb'_append_eq_right

/-- R80. -/
theorem decodeRegWrite_ctrlHum (h : BitVec 3) :
    decodeRegWrite 0xF2 ((0 : BitVec 5) ++ h) = .ok (.regCtrlHum h) := by
  have hzero : ((0 : BitVec 5) ++ h).extractLsb' 3 5 = 0 := BitVec.extractLsb'_append_eq_left
  have hh : ((0 : BitVec 5) ++ h).extractLsb' 0 3 = h := BitVec.extractLsb'_append_eq_right
  exact (if_pos hzero).trans (congrArg (fun x => Except.ok (Instr.regCtrlHum x)) hh)

/-- R81. -/
theorem decodeRegWrite_ctrlMeas (t p : BitVec 3) (m : BitVec 2) :
    decodeRegWrite 0xF4 (t ++ p ++ m) = .ok (.regCtrlMeas t p m) :=
  congrArg Except.ok (by rw [fields332_high, fields332_middle, fields332_low])

/-- R82. -/
theorem decodeRegWrite_config (sb f : BitVec 3) :
    decodeRegWrite 0xF5 (sb ++ f ++ (0 : BitVec 2)) = .ok (.regConfig sb f) :=
  (if_pos (fields332_low sb f 0)).trans (congrArg Except.ok (by rw [fields332_high, fields332_middle]))

/-- R83. -/
theorem decodeRegRead_status (hi : BitVec 4) (m : BitVec 1) (lo : BitVec 2) (im : BitVec 1) :
    decodeRegRead 0xF3 (hi ++ m ++ lo ++ im) = .ok (.regStatus hi m lo im) := by
  have hhi : (hi ++ m ++ lo ++ im).extractLsb' 4 4 = hi :=
    (BitVec.extractLsb'_append_eq_of_le (by decide)).trans
      ((BitVec.extractLsb'_append_eq_of_le (by decide)).trans BitVec.extractLsb'_append_eq_left)
  have hm : (hi ++ m ++ lo ++ im).extractLsb' 3 1 = m :=
    (BitVec.extractLsb'_append_eq_of_le (by decide)).trans
      ((BitVec.extractLsb'_append_eq_of_le (by decide)).trans BitVec.extractLsb'_append_eq_right)
  have hlo : (hi ++ m ++ lo ++ im).extractLsb' 1 2 = lo :=
    (BitVec.extractLsb'_append_eq_of_le (by decide)).trans BitVec.extractLsb'_append_eq_right
  have him : (hi ++ m ++ lo ++ im).extractLsb' 0 1 = im := BitVec.extractLsb'_append_eq_right
  exact congrArg Except.ok (by rw [hhi, hm, hlo, him])

/-- Settles O1: a command word gives back its two halves, and a register byte its fields, which stand side by side. -/
theorem decodeEncodeRoundTrip : Obligations.DecodeEncodeRoundTrip := by
  intro i
  cases i with
  | init | setOsrsH | setOsrsT | setOsrsP | setMode | setStandby | setFilter | getCoeff =>
    simp [encode, decode, decodeCommand]
  | getOsrsH | getOsrsT | getOsrsP | getMode | getStandby | getFilter => simp [encode, decode, decodeCommand]
  | read | getMeasuring | getImUpdate | readChipId | softReset => simp [encode, decode, decodeCommand]
  | regCtrlHum h => exact decodeRegWrite_ctrlHum h
  | regCtrlMeas t p m => exact decodeRegWrite_ctrlMeas t p m
  | regConfig sb f => exact decodeRegWrite_config sb f
  | regStatus hi m lo im => exact decodeRegRead_status hi m lo im
  | regReset => rfl

/-! ## What decodes -/

/-- The opcodes of the commands that take an argument (R86). -/
def argOpcodes : List Nat := [0x01, 0x10, 0x11, 0x12, 0x13, 0x14, 0x15, 0x28]

/-- The opcodes of the commands that take none (R86). -/
def bareOpcodes : List Nat := [0x20, 0x21, 0x22, 0x23, 0x24, 0x25, 0x30, 0x40, 0x41, 0x42, 0x50]

/-- What the decoder's answer `r` to the word `w` says of `w`: a command, whose word it is, with the two halves that the
table allows (R86, R92). -/
def ReadsWord (w : CmdWord) (r : Except DecodeError Instr) : Prop :=
  ∀ i, r = .ok i → encode i = .command w ∧ i.isCommand = true ∧
    ((opOf w).toNat ∈ argOpcodes ∨ ((opOf w).toNat ∈ bareOpcodes ∧ argOf w = 0))

theorem ReadsWord.error (w : CmdWord) (e : DecodeError) : ReadsWord w (.error e) := nofun

/-- A row of the decoder for a command with an argument. -/
theorem ReadsWord.arg {w : CmdWord} {r : Except DecodeError Instr} (op : Byte) (mk : Byte → Instr)
    (hop : op.toNat ∈ argOpcodes) (henc : ∀ a, encode (mk a) = .command (commandWord op a))
    (hcmd : ∀ a, (mk a).isCommand = true) (hr : ReadsWord w r) :
    ReadsWord w (if opOf w = op then .ok (mk (argOf w)) else r) := by
  split
  · next h =>
    subst h
    rintro _ ⟨⟩
    exact ⟨by rw [henc, commandWord_opOf_argOf], hcmd _, .inl hop⟩
  · exact hr

/-- A row of the decoder for a command without one. -/
theorem ReadsWord.bare {w : CmdWord} {r : Except DecodeError Instr} (op : Byte) (i : Instr)
    (hop : op.toNat ∈ bareOpcodes) (henc : encode i = .command (commandWord op 0)) (hcmd : i.isCommand = true)
    (hr : ReadsWord w r) : ReadsWord w (if opOf w = op then noArg (argOf w) i else r) := by
  split
  · next h =>
    subst h
    intro j hj
    obtain ⟨harg, rfl⟩ := noArg_eq_ok.mp hj
    exact ⟨by rw [henc, ← harg, commandWord_opOf_argOf], hcmd, .inr ⟨hop, harg⟩⟩
  · exact hr

theorem readsWord_decodeCommand (w : CmdWord) : ReadsWord w (decodeCommand w) :=
  .arg 0x01 .init (by decide) (fun _ => rfl) (fun _ => rfl) <|
  .arg 0x10 .setOsrsH (by decide) (fun _ => rfl) (fun _ => rfl) <|
  .arg 0x11 .setOsrsT (by decide) (fun _ => rfl) (fun _ => rfl) <|
  .arg 0x12 .setOsrsP (by decide) (fun _ => rfl) (fun _ => rfl) <|
  .arg 0x13 .setMode (by decide) (fun _ => rfl) (fun _ => rfl) <|
  .arg 0x14 .setStandby (by decide) (fun _ => rfl) (fun _ => rfl) <|
  .arg 0x15 .setFilter (by decide) (fun _ => rfl) (fun _ => rfl) <|
  .bare 0x20 .getOsrsH (by decide) rfl rfl <|
  .bare 0x21 .getOsrsT (by decide) rfl rfl <|
  .bare 0x22 .getOsrsP (by decide) rfl rfl <|
  .bare 0x23 .getMode (by decide) rfl rfl <|
  .bare 0x24 .getStandby (by decide) rfl rfl <|
  .bare 0x25 .getFilter (by decide) rfl rfl <|
  .arg 0x28 .getCoeff (by decide) (fun _ => rfl) (fun _ => rfl) <|
  .bare 0x30 .read (by decide) rfl rfl <|
  .bare 0x40 .getMeasuring (by decide) rfl rfl <|
  .bare 0x41 .getImUpdate (by decide) rfl rfl <|
  .bare 0x42 .readChipId (by decide) rfl rfl <|
  .bare 0x50 .softReset (by decide) rfl rfl <|
  .error w _

theorem isCommand_of_decode {w : CmdWord} {i : Instr} (h : decode (.command w) = .ok i) : i.isCommand = true :=
  (readsWord_decodeCommand w i h).2.1

/-- Bits 7:3, 2:0 of a byte (R80). -/
theorem ctrlHum_fields (b : Byte) : b.extractLsb' 3 5 ++ b.extractLsb' 0 3 = b :=
  BitVec.extractLsb'_append_extractLsb' (w := 5) (len := 3)

/-- Bits 7:5, 4:2, 1:0 of a byte (R81, R82). -/
theorem ctrlMeas_fields (b : Byte) : b.extractLsb' 5 3 ++ b.extractLsb' 2 3 ++ b.extractLsb' 0 2 = b := by
  rw [BitVec.extractLsb'_append_extractLsb'_eq_extractLsb' (by decide)]
  exact BitVec.extractLsb'_append_extractLsb' (w := 6) (len := 2)

/-- Bits 7:4, 3, 2:1, 0 of a byte (R83). -/
theorem status_fields (b : Byte) :
    b.extractLsb' 4 4 ++ b.extractLsb' 3 1 ++ b.extractLsb' 1 2 ++ b.extractLsb' 0 1 = b := by
  rw [BitVec.extractLsb'_append_extractLsb'_eq_extractLsb' (by decide),
    BitVec.extractLsb'_append_extractLsb'_eq_extractLsb' (by decide)]
  exact BitVec.extractLsb'_append_extractLsb' (w := 7) (len := 1)

theorem encode_of_decodeRegWrite {a b : Byte} {i : Instr} (h : decodeRegWrite a b = .ok i) :
    encode i = .regWrite a b := by
  unfold decodeRegWrite at h
  split_ifs at h with ha hzero ha hf5 hzero he0 hb <;> cases h <;> subst_vars
  · exact congrArg (Code.regWrite _) (by rw [← hzero]; exact ctrlHum_fields b)
  · exact congrArg (Code.regWrite _) (ctrlMeas_fields b)
  · exact congrArg (Code.regWrite _) (by rw [← hzero]; exact ctrlMeas_fields b)
  · rfl

theorem encode_of_decodeRegRead {a b : Byte} {i : Instr} (h : decodeRegRead a b = .ok i) :
    encode i = .regRead a b := by
  unfold decodeRegRead at h
  split at h <;> cases h
  subst_vars
  exact congrArg (Code.regRead _) (status_fields b)

/-- Settles O2: the halves of a word and the fields of a byte make it up again. -/
theorem encodeDecodeRoundTrip : Obligations.EncodeDecodeRoundTrip := by
  intro c i h
  cases c with
  | command w => exact (readsWord_decodeCommand w i h).1
  | regWrite a b => exact encode_of_decodeRegWrite h
  | regRead a b => exact encode_of_decodeRegRead h

/-- Every row of the table that takes an argument has a command for each argument. -/
theorem exists_encode_of_argOpcode (arg : Byte) :
    ∀ op ∈ argOpcodes, ∃ i, encode i = .command (commandWord (BitVec.ofNat 8 op) arg) := by
  simp only [argOpcodes, List.forall_mem_cons]
  exact ⟨⟨.init arg, rfl⟩, ⟨.setOsrsH arg, rfl⟩, ⟨.setOsrsT arg, rfl⟩, ⟨.setOsrsP arg, rfl⟩, ⟨.setMode arg, rfl⟩,
    ⟨.setStandby arg, rfl⟩, ⟨.setFilter arg, rfl⟩, ⟨.getCoeff arg, rfl⟩, nofun⟩

theorem exists_encode_of_bareOpcode :
    ∀ op ∈ bareOpcodes, ∃ i, encode i = .command (commandWord (BitVec.ofNat 8 op) 0) := by
  simp only [bareOpcodes, List.forall_mem_cons]
  exact ⟨⟨.getOsrsH, rfl⟩, ⟨.getOsrsT, rfl⟩, ⟨.getOsrsP, rfl⟩, ⟨.getMode, rfl⟩, ⟨.getStandby, rfl⟩, ⟨.getFilter, rfl⟩,
    ⟨.read, rfl⟩, ⟨.getMeasuring, rfl⟩, ⟨.getImUpdate, rfl⟩, ⟨.readChipId, rfl⟩, ⟨.softReset, rfl⟩, nofun⟩

/-- Settles O3: a word that decodes has the halves of its row (`readsWord_decodeCommand`), and a word of a row is the
encoding of a command, which decodes to it. -/
theorem commandWordsAreExactlyTheTable : Obligations.CommandWordsAreExactlyTheTable := by
  intro w
  have hw : commandWord (BitVec.ofNat 8 (opOf w).toNat) (argOf w) = w := by
    rw [BitVec.ofNat_toNat, BitVec.setWidth_eq, commandWord_opOf_argOf]
  have hdecodes : (∃ i, encode i = .command w) → ∃ i, decode (.command w) = .ok i :=
    fun ⟨i, hi⟩ => ⟨i, hi ▸ decodeEncodeRoundTrip i⟩
  constructor
  · rintro ⟨i, hi⟩
    exact (readsWord_decodeCommand w i hi).2.2
  · rintro (hop | ⟨hop, harg⟩)
    · exact hdecodes (hw ▸ exists_encode_of_argOpcode (argOf w) _ hop)
    · exact hdecodes (hw ▸ harg ▸ exists_encode_of_bareOpcode _ hop)

/-- Settles O4: ten codes, each decoded. -/
theorem writtenOutWordsDecode : Obligations.WrittenOutWordsDecode := by
  unfold Obligations.WrittenOutWordsDecode
  decide

end Sys2Proof
end

section
/-! PROOFS. The calibration parser and its packer (spec/40_calibration.md R112 to R117, R121). -/

namespace Sys2Proof.Machine

/-! ## Sign correction -/

/-- R115: inverting the bits subtracts from `2 ^ n - 1`. -/
theorem signCorr_eq_toInt (n : Nat) (v : BitVec n) : signCorr n v = v.toInt := by
  have hlt : v.toNat < 2 ^ n := v.isLt
  have hpow : ((2 ^ n : Nat) : Int) = 2 ^ n := by push_cast; rfl
  rw [signCorr, BitVec.toInt_eq_msb_cond, BitVec.xor_allOnes, BitVec.toNat_not]
  split
  · omega
  · rfl

/-- Settles O21. -/
theorem signCorrectionIsTwosComplement : Obligations.SignCorrectionIsTwosComplement :=
  signCorr_eq_toInt

theorem signCorr_eq_ite {n : Nat} (hn : 0 < n) (v : BitVec n) :
    signCorr n v = if (v.toNat : Int) < 2 ^ (n - 1) then (v.toNat : Int) else v.toNat - 2 ^ n := by
  cases n with
  | zero => omega
  | succ k =>
    have hdouble : 2 ^ (k + 1) = 2 * 2 ^ k := Nat.pow_succ'
    have hcast : ((2 ^ k : Nat) : Int) = 2 ^ k := by push_cast; rfl
    rw [signCorr_eq_toInt, BitVec.toInt_eq_toNat_cond, hdouble, Nat.add_sub_cancel, pow_succ', ← hcast]
    split_ifs <;> omega

/-! ## The words of an image -/

theorem toNat_word16 (low high : Byte) : (word16 low high).toNat = low.toNat + 256 * high.toNat := by
  have hlow : (low.setWidth 16).toNat = low.toNat := BitVec.toNat_setWidth_of_le (by decide)
  have hhigh : (high.setWidth 16).toNat = high.toNat := BitVec.toNat_setWidth_of_le (by decide)
  rw [word16, BitVec.or_comm, toNat_shiftLeft_or_of_width (by omega) (by omega)]
  omega

/-- The low nibble of the shared byte stands below byte 28 (R113). -/
theorem toNat_packedH3 (a b : Byte) : (packedH3 a b).toNat = 16 * a.toNat + b.toNat % 16 := by
  have ha : (a.setWidth 12).toNat = a.toNat := BitVec.toNat_setWidth_of_le (by decide)
  have hb : ((b &&& 0x0F).setWidth 12).toNat = b.toNat % 16 := by
    rw [BitVec.toNat_setWidth_of_le (by decide), BitVec.toNat_and]
    exact Nat.and_two_pow_sub_one_eq_mod b.toNat 4
  rw [packedH3, toNat_shiftLeft_or_of_width (by omega) (by omega)]
  omega

/-- The high nibble of the shared byte stands below byte 30 (R113). -/
theorem toNat_packedH4 (c b : Byte) : (packedH4 c b).toNat = 16 * c.toNat + b.toNat / 16 := by
  have hc : (c.setWidth 12).toNat = c.toNat := BitVec.toNat_setWidth_of_le (by decide)
  have hb : ((b >>> 4 &&& 0x0F).setWidth 12).toNat = b.toNat / 16 := by
    rw [BitVec.toNat_setWidth_of_le (by decide), BitVec.toNat_and, BitVec.toNat_ushiftRight, Nat.shiftRight_eq_div_pow]
    exact (Nat.and_two_pow_sub_one_eq_mod _ 4).trans (Nat.mod_eq_of_lt (by omega))
  rw [packedH4, toNat_shiftLeft_or_of_width (by omega) (by omega)]
  omega

/-- Settles O20: each word is a sum of its bytes, and the sign correction subtracts `2 ^ n` from the upper half. -/
theorem parserFollowsTheLayout : Obligations.ParserFollowsTheLayout := by
  intro raw n signed hn hsigned
  simp only [parseCalibration, calibWord, signCorr_eq_ite (n := 16) (by decide), signCorr_eq_ite (n := 12) (by decide),
    signCorr_eq_ite (n := 8) (by decide), toNat_word16, toNat_packedH3, toNat_packedH4, hn, hsigned]
  push_cast
  rfl

/-! ## The range of the coefficients -/

theorem isUnsigned_toNat {n : Nat} (v : BitVec n) : isUnsigned n (v.toNat : Int) = true := by
  have hlt : ((v.toNat : Nat) : Int) < ((2 ^ n : Nat) : Int) := Int.ofNat_lt.mpr v.isLt
  push_cast at hlt
  simp [isUnsigned, hlt]

theorem isSigned_signCorr {n : Nat} (v : BitVec n) : isSigned n (signCorr n v) = true := by
  rw [signCorr_eq_toInt, isSigned, decide_eq_true v.le_toInt, decide_eq_true v.toInt_lt, Bool.and_self]

/-- R23 to R25, for every list of bytes: a coefficient is made of a word of its type's width. -/
theorem inRange_parseCalibration (raw : List Byte) : (parseCalibration raw).inRange = true := by
  simp only [CalibrationData.inRange, parseCalibration, isUnsigned_toNat, isSigned_signCorr, Bool.and_self]

/-- Settles O24. -/
theorem parsedCoefficientsAreInRange : Obligations.ParsedCoefficientsAreInRange :=
  fun raw _ => inRange_parseCalibration raw

/-! ## Packing -/

theorem word16_lowByte_highByte (w : BitVec 16) : word16 (lowByte w) (highByte w) = w := by
  apply BitVec.eq_of_toNat_eq
  rw [toNat_word16, lowByte, highByte, BitVec.extractLsb'_toNat, BitVec.extractLsb'_toNat, Nat.shiftRight_eq_div_pow]
  omega

theorem lowByte_word16 (low high : Byte) : lowByte (word16 low high) = low := by
  apply BitVec.eq_of_toNat_eq
  rw [lowByte, BitVec.extractLsb'_toNat, toNat_word16]
  omega

theorem highByte_word16 (low high : Byte) : highByte (word16 low high) = high := by
  apply BitVec.eq_of_toNat_eq
  rw [highByte, BitVec.extractLsb'_toNat, toNat_word16, Nat.shiftRight_eq_div_pow]
  omega

theorem toNat_ofInt_of_isUnsigned {n : Nat} {x : Int} (h : isUnsigned n x = true) :
    ((BitVec.ofInt n x).toNat : Int) = x := by
  simp only [isUnsigned, Bool.and_eq_true, decide_eq_true_eq] at h
  obtain ⟨hnonneg, hlt⟩ := h
  have hlt' : x < ((2 ^ n : Nat) : Int) := by exact_mod_cast hlt
  rw [BitVec.toNat_ofInt, Int.emod_eq_of_lt hnonneg hlt', Int.toNat_of_nonneg hnonneg]

theorem signCorr_ofInt_of_isSigned {n : Nat} (hn : 0 < n) {x : Int} (h : isSigned n x = true) :
    signCorr n (BitVec.ofInt n x) = x := by
  simp only [isSigned, Bool.and_eq_true, decide_eq_true_eq] at h
  rw [signCorr_eq_toInt, BitVec.toInt_ofInt_eq_self hn h.1 h.2]

theorem toNat_nibbles (hi lo : BitVec 4) : (hi ++ lo).toNat = 16 * hi.toNat + lo.toNat := by
  rw [BitVec.toNat_append, ← Nat.shiftLeft_add_eq_or_of_lt lo.isLt, Nat.shiftLeft_eq, Nat.mul_comm]

theorem packedH3_pack (x : BitVec 12) (hi : BitVec 4) : packedH3 (x.extractLsb' 4 8) (hi ++ x.extractLsb' 0 4) = x := by
  apply BitVec.eq_of_toNat_eq
  simp only [toNat_packedH3, toNat_nibbles, BitVec.extractLsb'_toNat, Nat.shiftRight_eq_div_pow]
  omega

theorem packedH4_pack (x : BitVec 12) (lo : BitVec 4) : packedH4 (x.extractLsb' 4 8) (x.extractLsb' 0 4 ++ lo) = x := by
  apply BitVec.eq_of_toNat_eq
  simp only [toNat_packedH4, toNat_nibbles, BitVec.extractLsb'_toNat, Nat.shiftRight_eq_div_pow]
  omega

theorem extractLsb'_packedH3 (a b : Byte) : (packedH3 a b).extractLsb' 4 8 = a := by
  apply BitVec.eq_of_toNat_eq
  simp only [toNat_packedH3, BitVec.extractLsb'_toNat, Nat.shiftRight_eq_div_pow]
  omega

theorem extractLsb'_packedH4 (c b : Byte) : (packedH4 c b).extractLsb' 4 8 = c := by
  apply BitVec.eq_of_toNat_eq
  simp only [toNat_packedH4, BitVec.extractLsb'_toNat, Nat.shiftRight_eq_div_pow]
  omega

/-- The two packed coefficients share byte 29 between them (R113). -/
theorem nibbles_packed (a b c : Byte) :
    (packedH4 c b).extractLsb' 0 4 ++ (packedH3 a b).extractLsb' 0 4 = b := by
  apply BitVec.eq_of_toNat_eq
  simp only [toNat_nibbles, toNat_packedH3, toNat_packedH4, BitVec.extractLsb'_toNat]
  omega

theorem ofInt_toNat {n : Nat} (v : BitVec n) : BitVec.ofInt n (v.toNat : Int) = v := by
  rw [BitVec.ofInt_natCast, BitVec.ofNat_toNat, BitVec.setWidth_eq]

theorem ofInt_signCorr {n : Nat} (v : BitVec n) : BitVec.ofInt n (signCorr n v) = v := by
  rw [signCorr_eq_toInt, BitVec.ofInt_toInt]

/-- Settles O22: the two bytes of a word, and the three of the packed pair, make it up again, and a word in the range of
its type has its coefficient's value. -/
theorem parseAfterPack : Obligations.ParseAfterPack := by
  intro c hc
  simp only [CalibrationData.inRange, Bool.and_eq_true, and_assoc] at hc
  obtain ⟨t0, t1, t2, p0, p1, p2, p3, p4, p5, p6, p7, p8, h0, h1, h2, h3, h4, h5⟩ := hc
  simp [-BitVec.toNat_ofInt, parseCalibration, packCalibration, packWord, calibWord, word16_lowByte_highByte,
    packedH3_pack, packedH4_pack, toNat_ofInt_of_isUnsigned, signCorr_ofInt_of_isSigned, *]

/-- The bytes of an image by their index. -/
theorem eq_map_getD_range {raw : List Byte} {n : Nat} (h : raw.length = n) :
    (List.range n).map (fun i => raw.getD i 0) = raw := by
  subst h
  exact List.ext_getElem (by simp) (by simp +contextual)

/-- Settles O23: the packer takes each word apart again into the bytes that it was made of. -/
theorem packAfterParse : Obligations.PackAfterParse := by
  intro raw hraw
  rw [← eq_map_getD_range hraw]
  simp only [packCalibration, parseCalibration, packWord, calibWord, ofInt_toNat, ofInt_signCorr, lowByte_word16,
    highByte_word16, extractLsb'_packedH3, extractLsb'_packedH4, nibbles_packed]
  rfl

end Sys2Proof.Machine
end

section
/-! PROOFS. The codec (spec/41_codec_config.md R140 to R143, spec/42_mode_read.md R174, R175): an encoded byte is its
fields side by side. -/

namespace Sys2Proof.Machine

/-! ## The fields of an encoded byte -/

theorem toNat_fields332 (t p : BitVec 3) (m : BitVec 2) :
    (t ++ p ++ m).toNat = 32 * t.toNat + 4 * p.toNat + m.toNat := by
  rw [BitVec.toNat_append, BitVec.toNat_append, ← Nat.shiftLeft_add_eq_or_of_lt p.isLt,
    ← Nat.shiftLeft_add_eq_or_of_lt m.isLt, Nat.shiftLeft_eq, Nat.shiftLeft_eq]
  omega

/-- R141 of field values: nothing of a field is lost. -/
theorem encCtrlMeas_setWidth (t p : BitVec 3) (m : BitVec 2) :
    encCtrlMeas (t.setWidth 8) (p.setWidth 8) (m.setWidth 8) = t ++ p ++ m := by
  apply BitVec.eq_of_toNat_eq
  have ht : (t.setWidth 8).toNat = t.toNat := BitVec.toNat_setWidth_of_le (by decide)
  have hp : (p.setWidth 8).toNat = p.toNat := BitVec.toNat_setWidth_of_le (by decide)
  have hm : (m.setWidth 8).toNat = m.toNat := BitVec.toNat_setWidth_of_le (by decide)
  rw [toNat_encCtrlMeas (by omega) (by omega) (by omega), ht, hp, hm]
  exact (toNat_fields332 t p m).symm

/-- R142 of field values. -/
theorem encConfig_setWidth (sb f : BitVec 3) :
    encConfig (sb.setWidth 8) (f.setWidth 8) = sb ++ f ++ (0 : BitVec 2) :=
  encCtrlMeas_setWidth sb f 0

/-- R140 of a field value. -/
theorem encCtrlHum_setWidth (h : BitVec 3) : encCtrlHum (h.setWidth 8) = (0 : BitVec 5) ++ h := by
  apply BitVec.eq_of_toNat_eq
  have hh : (h.setWidth 8).toNat = h.toNat := BitVec.toNat_setWidth_of_le (by decide)
  rw [toNat_encCtrlHum, hh, BitVec.toNat_append]
  simp
  omega

/-- Settles O27: the fields of the encoded byte are the bits that the decoder takes, and a byte is its fields. -/
theorem decodersInvertTheEncoders : Obligations.DecodersInvertTheEncoders := by
  refine ⟨fun h => ?_, fun t p m => ?_, fun sb f => ?_, fun b => ?_, fun b hb => ?_, fun b hb => ?_⟩
  · rw [encCtrlHum_setWidth]
    exact BitVec.extractLsb'_append_eq_right
  · rw [encCtrlMeas_setWidth, decCtrlMeas]
    simp
  · rw [encConfig_setWidth, decConfig]
    simp
  · exact (encCtrlMeas_setWidth _ _ _).trans (ctrlMeas_fields b)
  · rw [encCtrlHum_setWidth, ← hb]
    exact ctrlHum_fields b
  · rw [encConfig_setWidth, ← hb]
    exact ctrlMeas_fields b

/-- Settles O38. -/
theorem durationFormula : Obligations.DurationFormula := by
  intro t p h
  unfold durationUs
  omega

/-! ## Legal arguments as fields (R99) -/

theorem argCode3_eq_setWidth (arg : Byte) : argCode3 arg = arg.setWidth 3 :=
  (BitVec.setWidth_eq_extractLsb' (by decide)).symm

theorem argCode2_eq_setWidth (arg : Byte) : argCode2 arg = arg.setWidth 2 :=
  (BitVec.setWidth_eq_extractLsb' (by decide)).symm

/-- An argument that fits its field is stored unchanged. -/
theorem setWidth_argCode3 {arg : Byte} (h : arg.toNat < 8) : (argCode3 arg).setWidth 8 = arg := by
  apply BitVec.eq_of_toNat_eq
  rw [argCode3_eq_setWidth, BitVec.toNat_setWidth, BitVec.toNat_setWidth]
  omega

theorem setWidth_argCode2 {arg : Byte} (h : arg.toNat < 4) : (argCode2 arg).setWidth 8 = arg := by
  apply BitVec.eq_of_toNat_eq
  rw [argCode2_eq_setWidth, BitVec.toNat_setWidth, BitVec.toNat_setWidth]
  omega

theorem oversamplingLegal_iff {arg : Byte} : oversamplingLegal arg = true ↔ arg.toNat ≤ 5 := by
  simp [oversamplingLegal]

theorem standbyLegal_iff {arg : Byte} : standbyLegal arg = true ↔ arg.toNat ≤ 7 := by
  simp [standbyLegal]

theorem filterLegal_iff {arg : Byte} : filterLegal arg = true ↔ arg.toNat ≤ 4 := by
  simp [filterLegal]

theorem coeffIndexLegal_iff {arg : Byte} : coeffIndexLegal arg = true ↔ arg.toNat ≤ 17 := by
  simp [coeffIndexLegal]

theorem modeLegal_iff {arg : Byte} : modeLegal arg = true ↔ arg = 0 ∨ arg = 1 ∨ arg = 3 := by
  simp [modeLegal, or_assoc]

theorem addressLegal_iff {arg : Byte} : addressLegal arg = true ↔ arg.toNat < 128 := by
  rw [← Bool.not_eq_false, addressLegal_eq_false, not_le]

theorem toNat_lt_of_modeLegal {arg : Byte} (h : modeLegal arg = true) : arg.toNat < 4 := by
  obtain rfl | rfl | rfl := modeLegal_iff.mp h <;> decide

theorem encCtrlHum_of_legal {arg : Byte} (h : oversamplingLegal arg = true) : encCtrlHum arg = arg := by
  apply BitVec.eq_of_toNat_eq
  have := oversamplingLegal_iff.mp h
  rw [toNat_encCtrlHum]
  omega

end Sys2Proof.Machine
end

section
/-! PROOFS. What one request, one micro-step and one run of the sequencer do (spec/00_scope.md R12, spec/10_state.md R36,
R42): the rules the proofs about commands start from. -/

namespace Sys2Proof.Machine

/-! ## One request -/

/-- What an answered request makes of the register space. -/
def Request.stored : Request → Memory → Memory
  | .write a b, m => m.write a.toNat b
  | .read _, m | .delay _, m => m

/-- The trace entry of an answered request. -/
def Request.event (dev : DevAddr) (b : Byte) : Request → Event
  | .read a => .read dev a b
  | .write a x => .write dev a x
  | .delay us => .delay us

/-- The trace entry of a failed transaction; a delay has none. -/
def Request.failure (dev : DevAddr) (f : Token) : Request → Event
  | .read a => .readFail dev a f
  | .write a x => .writeFail dev a x f
  | .delay us => .delay us

/-- The state after a request is answered. -/
def State.answered (s : State) (r : Request) (b : Byte) (e : Env) : State :=
  { s with mem := r.stored s.mem, trace := s.trace ++ [r.event s.devAddr b], env := e }

/-- The state after a transaction has failed, before the command ends. -/
def State.failed (s : State) (r : Request) (f : Token) (e : Env) : State :=
  { s with trace := s.trace ++ [r.failure s.devAddr f], env := e }

@[simp] theorem answered_life (s : State) (r : Request) (b : Byte) (e : Env) : (s.answered r b e).life = s.life := rfl
@[simp] theorem answered_devAddr (s : State) (r : Request) (b : Byte) (e : Env) :
    (s.answered r b e).devAddr = s.devAddr := rfl
@[simp] theorem answered_cal (s : State) (r : Request) (b : Byte) (e : Env) : (s.answered r b e).cal = s.cal := rfl
@[simp] theorem answered_rawCal (s : State) (r : Request) (b : Byte) (e : Env) :
    (s.answered r b e).rawCal = s.rawCal := rfl
@[simp] theorem answered_cfg (s : State) (r : Request) (b : Byte) (e : Env) : (s.answered r b e).cfg = s.cfg := rfl
@[simp] theorem answered_data (s : State) (r : Request) (b : Byte) (e : Env) : (s.answered r b e).data = s.data := rfl
@[simp] theorem answered_resp (s : State) (r : Request) (b : Byte) (e : Env) : (s.answered r b e).resp = s.resp := rfl
@[simp] theorem answered_mem (s : State) (r : Request) (b : Byte) (e : Env) :
    (s.answered r b e).mem = r.stored s.mem := rfl
@[simp] theorem answered_trace (s : State) (r : Request) (b : Byte) (e : Env) :
    (s.answered r b e).trace = s.trace ++ [r.event s.devAddr b] := rfl
@[simp] theorem answered_env (s : State) (r : Request) (b : Byte) (e : Env) : (s.answered r b e).env = e := rfl

@[simp] theorem failed_life (s : State) (r : Request) (f : Token) (e : Env) : (s.failed r f e).life = s.life := rfl
@[simp] theorem failed_cfg (s : State) (r : Request) (f : Token) (e : Env) : (s.failed r f e).cfg = s.cfg := rfl
@[simp] theorem failed_mem (s : State) (r : Request) (f : Token) (e : Env) : (s.failed r f e).mem = s.mem := rfl
@[simp] theorem failed_trace (s : State) (r : Request) (f : Token) (e : Env) :
    (s.failed r f e).trace = s.trace ++ [r.failure s.devAddr f] := rfl
@[simp] theorem failed_env (s : State) (r : Request) (f : Token) (e : Env) : (s.failed r f e).env = e := rfl

@[simp] theorem Request.event_request (dev : DevAddr) (b : Byte) (r : Request) : (r.event dev b).request = r := by
  cases r <;> rfl

@[simp] theorem Request.failure_request (dev : DevAddr) (f : Token) (r : Request) : (r.failure dev f).request = r := by
  cases r <;> rfl

theorem Request.event_dev (dev : DevAddr) (b : Byte) (r : Request) :
    (r.event dev b).dev = none ∨ (r.event dev b).dev = some dev := by
  cases r with
  | read | write => exact .inr rfl
  | delay => exact .inl rfl

theorem Request.failure_dev (dev : DevAddr) (f : Token) (r : Request) :
    (r.failure dev f).dev = none ∨ (r.failure dev f).dev = some dev := by
  cases r with
  | read | write => exact .inr rfl
  | delay => exact .inl rfl

/-- Everything a request can do: it is answered, its transaction fails, or it takes a pending answer alone. -/
theorem ask_outcome (r : Request) (s : State) :
    (∃ b, ∃ e : Env, e.host = s.env.host ∧
      ask r s = .done b (s.answered r b e)) ∨
    (∃ f, ∃ e : Env, e.host = s.env.host ∧
      ask r s = .failed f (s.failed r f e)) ∨
    (∃ e : Env, e.host = s.env.host ∧ ask r s = .blocked { s with env := e }) := by
  cases r with
  | read a =>
    obtain ⟨b, -, ha⟩ | ⟨f, -, ha⟩ | ⟨-, ha⟩ := ask_read_cases a s
    · exact .inl ⟨b, _, afterBus_host _, ha⟩
    · exact .inr (.inl ⟨f, _, afterBus_host _, ha⟩)
    · exact .inr (.inr ⟨_, afterBus_host _, ha⟩)
  | write a x =>
    obtain ⟨_, -, ha⟩ | ⟨f, -, ha⟩ | ⟨-, ha⟩ := ask_write_cases a x s
    · exact .inl ⟨0, _, afterBus_host _, ha⟩
    · exact .inr (.inl ⟨f, _, afterBus_host _, ha⟩)
    · exact .inr (.inr ⟨_, afterBus_host _, ha⟩)
  | delay us =>
    obtain ⟨-, ha⟩ | ⟨-, ha⟩ := ask_delay_cases us s
    · exact .inl ⟨0, _, afterDelay_host _, ha⟩
    · exact .inr (.inr ⟨_, afterDelay_host _, ha⟩)

/-- A transaction that BUS fails. -/
theorem ask_read_fail {s : State} {f : Token} (a : Byte) (h : s.env.busReply = .fail f) :
    ask (.read a) s = .failed f { s with
      trace := s.trace ++ [Event.readFail s.devAddr a f], env := s.env.afterBus } := by
  simp [ask, h]

theorem ask_write_fail {s : State} {f : Token} (a b : Byte) (h : s.env.busReply = .fail f) :
    ask (.write a b) s =
      .failed f { s with trace := s.trace ++ [Event.writeFail s.devAddr a b f], env := s.env.afterBus } := by
  simp [ask, h]

theorem ask_delay_elapsed {s : State} (us : Nat) (h : s.env.delayReply = .elapsed) :
    ask (.delay us) s = .done 0 { s with trace := s.trace ++ [Event.delay us], env := s.env.afterDelay } := by
  simp [ask, h]

/-- A bus transaction, not a delay. -/
def Request.isBus : Request → Bool
  | .read _ | .write _ _ => true
  | .delay _ => false

/-- The byte that a request returns when BUS answers with `b`. -/
def Request.returned (b : Byte) : Request → Byte
  | .read _ => b
  | .write _ _ | .delay _ => 0

theorem ask_bus_ok {r : Request} {s : State} {x : Byte} (hr : r.isBus = true) (hok : s.env.busReply = .ok x) :
    ask r s = .done (r.returned x) (s.answered r (r.returned x) s.env.afterBus) := by
  cases r with
  | read a => exact ask_read_ok a hok
  | write a b => exact ask_write_ok a b hok
  | delay us => cases hr

theorem ask_bus_fail {r : Request} {s : State} {f : Token} (hr : r.isBus = true) (hfail : s.env.busReply = .fail f) :
    ask r s = .failed f (s.failed r f s.env.afterBus) := by
  cases r with
  | read a => exact ask_read_fail a hfail
  | write a b => exact ask_write_fail a b hfail
  | delay us => cases hr

theorem ask_bus_pending {r : Request} {s : State} (hr : r.isBus = true) (hpending : s.env.busReply = .pending) :
    ask r s = .blocked { s with env := s.env.afterBus } := by
  cases r with
  | read a => simp [ask, hpending]
  | write a b => simp [ask, hpending]
  | delay us => cases hr

theorem ask_delay_pending {s : State} (us : Nat) (h : s.env.delayReply = .pending) :
    ask (.delay us) s = .blocked { s with env := s.env.afterDelay } := by
  simp [ask, h]

theorem Request.failure_failed {r : Request} (hr : r.isBus = true) (dev : DevAddr) (f : Token) :
    (r.failure dev f).failed = true := by
  cases r with
  | read | write => rfl
  | delay => cases hr

/-! ## One micro-step -/

/-- A micro-step's request looks at DeviceConfig alone. -/
theorem request_congr (m : Micro) {s s' : State} (h : s'.cfg = s.cfg) : m.request s' = m.request s := by
  cases m <;> simp only [Micro.request, h]

@[simp] theorem complete_env (m : Micro) (b : Byte) (s : State) : (m.complete b s).env = s.env := by
  cases m <;> rfl

@[simp] theorem complete_devAddr (m : Micro) (b : Byte) (s : State) : (m.complete b s).devAddr = s.devAddr := by
  cases m <;> rfl

@[simp] theorem complete_mem (m : Micro) (b : Byte) (s : State) : (m.complete b s).mem = s.mem := by
  cases m <;> rfl

@[simp] theorem transportError_host (f : Token) (s : State) : (transportError f s).env.host = s.env.host := by
  unfold transportError
  split <;> rfl

@[simp] theorem transportError_mem (f : Token) (s : State) : (transportError f s).mem = s.mem := by
  unfold transportError
  split <;> rfl

@[simp] theorem transportError_life (f : Token) (s : State) : (transportError f s).life = s.life := by
  unfold transportError
  split <;> rfl

@[simp] theorem transportError_resp (f : Token) (s : State) : (transportError f s).resp = ⟨1, f.setWidth 64⟩ := by
  unfold transportError
  split <;> rfl

theorem transportError_unconstructed {s : State} (f : Token) (h : s.life = .unconstructed) :
    transportError f s = respond .transportError (f.setWidth 64) (unspecifyInit { s with data := [] }) := by
  simp [transportError, h]

/-! ## A run of the sequencer -/

/-- The induction over a run: `I` speaks of the micro-steps that remain and the state before them, `Q` of the state in
which the run ends: over, failed, or blocked. -/
theorem run_induction {I : List Micro → State → Prop} {Q : State → Prop}
    (done : ∀ s, I [] s → Q { s with phase := [] })
    (internal : ∀ m ms s, I (m :: ms) s → m.request s = none → I ms (m.complete 0 s))
    (answered : ∀ m ms s r b (e : Env), I (m :: ms) s → m.request s = some r → e.host = s.env.host →
      I ms (m.complete b (s.answered r b e)))
    (failed : ∀ m ms s r f (e : Env), I (m :: ms) s → m.request s = some r → e.host = s.env.host →
      Q (transportError f (s.failed r f e)))
    (blocked : ∀ m ms s r (e : Env), I (m :: ms) s → m.request s = some r → e.host = s.env.host →
      Q { s with env := e, phase := m :: ms })
    (ms : List Micro) (s : State) (h : I ms s) : Q (run ms s) := by
  induction ms generalizing s with
  | nil => exact done s h
  | cons m ms ih =>
    cases hr : m.request s with
    | none =>
      rw [run_internal ms hr]
      exact ih _ (internal m ms s h hr)
    | some r =>
      obtain ⟨b, e, he, ha⟩ | ⟨f, e, he, ha⟩ | ⟨e, he, ha⟩ := ask_outcome r s
      · rw [run_done ms hr ha]
        exact ih _ (answered m ms s r b e h hr he)
      · rw [run_failed ms hr ha]
        exact failed m ms s r f e h hr he
      · rw [run_blocked ms hr ha]
        exact blocked m ms s r e h hr he

/-- A run takes no host input (R38). -/
theorem run_host (ms : List Micro) (s : State) : (run ms s).env.host = s.env.host :=
  run_induction (I := fun _ u => u.env.host = s.env.host) (Q := fun t => t.env.host = s.env.host)
    (fun _ h => h) (fun m _ u h _ => by simpa using h) (fun m _ u r b e h _ he => by simpa using he.trans h)
    (fun m _ u r f e h _ he => by simpa using he.trans h) (fun m _ u r e h _ he => he.trans h) ms s rfl

/-- The same outcome in another state. -/
def Asked.map (g : State → State) : Asked → Asked
  | .done b s => .done b (g s)
  | .failed f s => .failed f (g s)
  | .blocked s => .blocked (g s)

theorem ask_withPhase (r : Request) (s : State) (p : List Micro) :
    ask r { s with phase := p } = (ask r s).map (fun u => { u with phase := p }) := by
  cases r with
  | read a => cases h : s.env.busReply <;> simp [ask, h, Asked.map]
  | write a b => cases h : s.env.busReply <;> simp [ask, h, Asked.map]
  | delay us => cases h : s.env.delayReply <;> simp [ask, h, Asked.map]

theorem complete_withPhase (m : Micro) (b : Byte) (s : State) (p : List Micro) :
    ∃ p', m.complete b { s with phase := p } = { m.complete b s with phase := p' } := by
  cases m <;> exact ⟨_, rfl⟩

theorem transportError_withPhase (f : Token) (s : State) (p : List Micro) :
    transportError f { s with phase := p } = transportError f s := by
  unfold transportError
  cases s.life <;> rfl

/-- A run does not look at what was in flight before it. -/
theorem run_withPhase (ms : List Micro) (s : State) (p : List Micro) : run ms { s with phase := p } = run ms s := by
  induction ms generalizing s p with
  | nil => rfl
  | cons m ms ih =>
    have hreq : m.request { s with phase := p } = m.request s := request_congr m rfl
    cases hr : m.request s with
    | none =>
      obtain ⟨p', hp⟩ := complete_withPhase m 0 s p
      rw [run_internal ms hr, run_internal ms (hreq.trans hr), hp, ih]
    | some r =>
      have hask := ask_withPhase r s p
      cases ha : ask r s with
      | done b u =>
        obtain ⟨p', hp⟩ := complete_withPhase m b u p
        rw [run_done ms hr ha, run_done ms (hreq.trans hr) (hask.trans (congrArg _ ha)), hp, ih]
      | failed f u =>
        rw [run_failed ms hr ha, run_failed ms (hreq.trans hr) (hask.trans (congrArg _ ha)), transportError_withPhase]
      | blocked u =>
        rw [run_blocked ms hr ha, run_blocked ms (hreq.trans hr) (hask.trans (congrArg _ ha))]

end Sys2Proof.Machine
end

section
/-! PROOFS. What an instruction does before its first micro-step (spec/60_exceptions.md R223 to R227). -/

namespace Sys2Proof.Machine

/-! ## Acceptance -/

theorem exec_eq_whenIdle {i : Instr} (hcmd : i.isCommand = true) (s : State) : ∃ t, exec i s = whenIdle s t := by
  cases i with
  | regCtrlHum | regCtrlMeas | regConfig | regStatus | regReset => cases hcmd
  | _ => exact ⟨_, rfl⟩

/-- Every command but INIT makes the lifecycle check first (R227). -/
theorem exec_eq_whenReady {i : Instr} (hcmd : i.isCommand = true) (hinit : ∀ arg, i ≠ .init arg) (s : State) :
    ∃ t, exec i s = whenIdle s (whenReady s t) := by
  cases i with
  | init arg => exact absurd rfl (hinit arg)
  | regCtrlHum | regCtrlMeas | regConfig | regStatus | regReset => cases hcmd
  | _ => exact ⟨_, rfl⟩

/-- Settles O10. -/
theorem commandWhileBusyStops : Obligations.CommandWhileBusyStops := by
  intro s i hcmd hbusy
  obtain ⟨t, ht⟩ := exec_eq_whenIdle hcmd s
  rw [ht, whenIdle]
  split
  · contradiction
  · rfl

theorem idle_of_exec_next {s t : State} {i : Instr} (hcmd : i.isCommand = true) (h : exec i s = .next t) :
    s.phase = [] := by
  by_contra hbusy
  cases (commandWhileBusyStops s i hcmd hbusy).symm.trans h

/-- Settles O14. -/
theorem notConstructedBeforeInit : Obligations.NotConstructedBeforeInit := by
  intro s i hcmd hinit hidle hlife
  obtain ⟨t, ht⟩ := exec_eq_whenReady hcmd hinit s
  rw [ht, whenIdle_idle _ hidle, whenReady_unconstructed t hlife]
  exact congrArg _ (respond_idle .notConstructed 0 hidle)

/-- Settles O15. -/
theorem secondInitAnswersAlreadyConstructed : Obligations.SecondInitAnswersAlreadyConstructed := by
  intro s arg hidle hready
  have hexec : exec (.init arg) s = whenIdle s (alreadyConstructed s) := by simp only [exec, execInit, hready]
  rw [hexec, whenIdle_idle _ hidle]
  exact congrArg _ (respond_idle .alreadyConstructed 0 hidle)

/-! ## Where the micro-steps of an instruction begin -/

/-- An instruction passes its checks: it then runs these micro-steps from this state. -/
inductive Starts (s : State) : Instr → List Micro → State → Prop where
  | init {arg : Byte} (hlife : s.life = .unconstructed) (hlegal : addressLegal arg = true) :
      Starts s (.init arg) (calibReads ++ initTail) { s with devAddr := argDevAddr arg, rawCal := [] }
  | setOsrsH {arg : Byte} (hlife : s.life = .ready) (hlegal : oversamplingLegal arg = true) :
      Starts s (.setOsrsH arg) [.setHum arg, .pushMeas, .respondOk] s
  | setOsrsT {arg : Byte} (hlife : s.life = .ready) (hlegal : oversamplingLegal arg = true) :
      Starts s (.setOsrsT arg) [.setTemp arg, .respondOk] s
  | setOsrsP {arg : Byte} (hlife : s.life = .ready) (hlegal : oversamplingLegal arg = true) :
      Starts s (.setOsrsP arg) [.setPress arg, .respondOk] s
  | setMode {arg : Byte} (hlife : s.life = .ready) (hlegal : modeLegal arg = true) :
      Starts s (.setMode arg) [.setMode arg, .respondOk] s
  | setStandby {arg : Byte} (hlife : s.life = .ready) (hlegal : standbyLegal arg = true) :
      Starts s (.setStandby arg) [.setStandby arg, .respondOk] s
  | setFilter {arg : Byte} (hlife : s.life = .ready) (hlegal : filterLegal arg = true) :
      Starts s (.setFilter arg) [.setFilter arg, .respondOk] s
  | read (hlife : s.life = .ready) : Starts s .read (readSteps (s.cfg.mode == modeForced)) { s with data := [] }
  | getMeasuring (hlife : s.life = .ready) : Starts s .getMeasuring [.probe .measuring] s
  | getImUpdate (hlife : s.life = .ready) : Starts s .getImUpdate [.probe .imUpdate] s
  | readChipId (hlife : s.life = .ready) : Starts s .readChipId [.chipId] s
  | softReset (hlife : s.life = .ready) : Starts s .softReset [.softReset, .respondOk] s

theorem Starts.isCommand {s u : State} {i : Instr} {ms : List Micro} (h : Starts s i ms u) : i.isCommand = true := by
  cases h <;> rfl

/-- The checks of R227 that have passed are those the command makes. -/
theorem exec_of_starts {s u : State} {i : Instr} {ms : List Micro} (hidle : s.phase = []) (h : Starts s i ms u) :
    exec i s = .next (run ms u) := by
  cases h with
  | init hlife hlegal =>
    rw [exec, execInit_unconstructed _ hlife, whenIdle_idle _ hidle, hlegal]
    rfl
  | setOsrsH hlife hlegal | setOsrsT hlife hlegal | setOsrsP hlife hlegal | setMode hlife hlegal
  | setStandby hlife hlegal | setFilter hlife hlegal =>
    refine (whenIdle_idle _ hidle).trans (congrArg _ ((whenReady_ready _ hlife).trans ?_))
    rw [hlegal]
    rfl
  | read hlife | getMeasuring hlife | getImUpdate hlife | readChipId hlife | softReset hlife =>
    exact (whenIdle_idle _ hidle).trans (congrArg _ (whenReady_ready _ hlife))

/-- What a command makes of an idle block: an error response, the response of a command without traffic, or a run. -/
inductive CommandResult (s : State) (i : Instr) : State → Prop where
  | refused (st : Status) (d : BitVec 64) (hst : st ≠ .ok) : CommandResult s i (respond st d s)
  | answered (d : BitVec 64) (hlife : s.life = .ready) (hnone : ∀ forced, accesses forced i = []) :
      CommandResult s i (respond .ok d s)
  | ran {ms : List Micro} {u : State} (h : Starts s i ms u) : CommandResult s i (run ms u)

theorem CommandResult.whenReady {s t : State} {i : Instr} (h : s.life = .ready → CommandResult s i t) :
    CommandResult s i (whenReady s t) := by
  cases hl : s.life with
  | ready => exact (whenReady_ready t hl).symm ▸ h hl
  | unconstructed => exact (whenReady_unconstructed t hl).symm ▸ .refused .notConstructed 0 (by decide)

theorem CommandResult.whenLegal {s t : State} {i : Instr} {legal : Bool} (arg : Byte)
    (h : legal = true → CommandResult s i t) : CommandResult s i (whenLegal legal arg s t) := by
  cases legal with
  | true => exact h rfl
  | false => exact .refused .invalidConfigValue _ (by decide)

/-- Everything a command can do. -/
theorem commandResult_of_exec {s t : State} {i : Instr} (hcmd : i.isCommand = true) (h : exec i s = .next t) :
    CommandResult s i t := by
  cases i with
  | init arg =>
    cases hl : s.life with
    | ready =>
      have hidle := idle_of_exec_next hcmd h
      rw [secondInitAnswersAlreadyConstructed s arg hidle hl] at h
      obtain rfl : respond .alreadyConstructed 0 s = t :=
        (respond_idle .alreadyConstructed 0 hidle).trans (Host.Outcome.next.inj h)
      exact .refused .alreadyConstructed 0 (by decide)
    | unconstructed =>
      rw [exec, execInit_unconstructed arg hl] at h
      exact whenIdle_next h ▸ .whenLegal _ fun ha => .ran (.init hl ha)
  | setOsrsH arg => exact whenIdle_next h ▸ .whenReady fun hl => .whenLegal _ fun ha => .ran (.setOsrsH hl ha)
  | setOsrsT arg => exact whenIdle_next h ▸ .whenReady fun hl => .whenLegal _ fun ha => .ran (.setOsrsT hl ha)
  | setOsrsP arg => exact whenIdle_next h ▸ .whenReady fun hl => .whenLegal _ fun ha => .ran (.setOsrsP hl ha)
  | setMode arg => exact whenIdle_next h ▸ .whenReady fun hl => .whenLegal _ fun ha => .ran (.setMode hl ha)
  | setStandby arg => exact whenIdle_next h ▸ .whenReady fun hl => .whenLegal _ fun ha => .ran (.setStandby hl ha)
  | setFilter arg => exact whenIdle_next h ▸ .whenReady fun hl => .whenLegal _ fun ha => .ran (.setFilter hl ha)
  | getCoeff arg => exact whenIdle_next h ▸ .whenReady fun hl => .whenLegal _ fun _ => .answered _ hl fun _ => rfl
  | getOsrsH | getOsrsT | getOsrsP | getMode | getStandby | getFilter =>
    exact whenIdle_next h ▸ .whenReady fun hl => .answered _ hl fun _ => rfl
  | read => exact whenIdle_next h ▸ .whenReady fun hl => .ran (.read hl)
  | getMeasuring => exact whenIdle_next h ▸ .whenReady fun hl => .ran (.getMeasuring hl)
  | getImUpdate => exact whenIdle_next h ▸ .whenReady fun hl => .ran (.getImUpdate hl)
  | readChipId => exact whenIdle_next h ▸ .whenReady fun hl => .ran (.readChipId hl)
  | softReset => exact whenIdle_next h ▸ .whenReady fun hl => .ran (.softReset hl)
  | regCtrlHum | regCtrlMeas | regConfig | regStatus | regReset => cases hcmd

end Sys2Proof.Machine
end

section
/-! PROOFS. The command port (spec/10_state.md R38, spec/30_encoding.md R92, R94, R96, spec/70_reset_and_hazards.md R250,
R251). -/

namespace Sys2Proof.Machine

/-! ## What the port fetches -/

/-- The host issues a word: a plain one, or one that waits for an OK that has come (R96). -/
theorem fetch_word {s : State} {w : CmdWord} {rest : List HostEvent} (hidle : s.phase = [])
    (hhost : s.env.host = .cmd w :: rest ∨ (s.env.host = .cmdIfOk w :: rest ∧ s.resp.status = 0)) :
    fetch s = fetchWord w s ∧ s.takeHost = { s with env := { s.env with host := rest } } := by
  obtain hhost | ⟨hhost, hok⟩ := hhost
  · simp [fetch, hidle, hhost, State.takeHost]
  · simp [fetch, hidle, hhost, hok, State.takeHost, Status.code]

/-- Settles O5. -/
theorem stepRunsTheDecodedCommand : Obligations.StepRunsTheDecodedCommand := by
  intro s w rest i hidle hhost hdecode
  obtain ⟨hfetch, htake⟩ := fetch_word hidle hhost
  simp [step, hfetch, fetchWord, hdecode, htake]

/-- Settles O8. -/
theorem illegalWordAnswersIllegalCommand : Obligations.IllegalWordAnswersIllegalCommand := by
  intro s w rest e hidle hhost hdecode
  obtain ⟨hfetch, htake⟩ := fetch_word hidle hhost
  simp [step, hfetch, fetchWord, hdecode, htake, illegalCommand, respond, hidle, Status.code]

/-- Settles O6. -/
theorem followUpIsNotIssuedAfterAnError : Obligations.FollowUpIsNotIssuedAfterAnError := by
  intro s w rest hidle hhost herror
  have herr : s.resp.status ≠ Status.ok.code := herror
  simp [step, fetch, hidle, hhost, herr, State.takeHost]

/-- Settles O11. -/
theorem idleBlockWaits : Obligations.IdleBlockWaits := by
  intro s hidle hhost
  simp [step, fetch, hidle, hhost]

theorem step_busy {s : State} (hbusy : s.phase ≠ []) (hrst : s.noReset = true) : step s = .next (run s.phase s) := by
  obtain ⟨m, ms, hp⟩ := List.exists_cons_of_ne_nil hbusy
  cases hh : s.env.host with
  | nil => simp [step, fetch, hp, hh, resume]
  | cons ev rest =>
    cases ev with
    | rst => simp [State.noReset, hh] at hrst
    | cmd w | cmdIfOk w => simp [step, fetch, hp, hh, resume]

/-- Settles O9. -/
theorem busyPortAcceptsNothing : Obligations.BusyPortAcceptsNothing :=
  fun s hbusy hrst => ⟨step_busy hbusy hrst, run_host s.phase s⟩

/-! ## Hardware reset -/

theorem abandonedEvents_idle {s : State} (hidle : s.phase = []) : abandonedEvents s = [] := by
  simp [abandonedEvents, hidle]

theorem abandonedEvents_internal {s : State} {m : Micro} {ms : List Micro} (hp : s.phase = m :: ms)
    (hr : m.request s = none) : abandonedEvents s = [] := by
  simp [abandonedEvents, hp, hr]

theorem abandonedEvents_request {s : State} {m : Micro} {ms : List Micro} {r : Request} (hp : s.phase = m :: ms)
    (hr : m.request s = some r) : abandonedEvents s = [.abandoned s.devAddr r] := by
  simp [abandonedEvents, hp, hr]

@[simp] theorem abandonedEvents_takeReset (s : State) : abandonedEvents s.takeReset = abandonedEvents s := by
  cases hp : s.phase with
  | nil => rw [abandonedEvents_idle hp, abandonedEvents_idle (s := s.takeReset) hp]
  | cons m ms =>
    have hreq : m.request s.takeReset = m.request s := request_congr m rfl
    cases hr : m.request s with
    | none => rw [abandonedEvents_internal hp hr, abandonedEvents_internal (s := s.takeReset) hp (hreq.trans hr)]
    | some r =>
      rw [abandonedEvents_request hp hr, abandonedEvents_request (s := s.takeReset) hp (hreq.trans hr)]
      rfl

/-- Settles O12: the request in flight is that of the first micro-step that remains. -/
theorem hardResetAtAnyTime : Obligations.HardResetAtAnyTime := by
  intro s rest hhost
  refine ⟨hardReset s.takeReset, by simp [step, fetch, hhost], rfl, rfl, rfl, rfl, rfl, rfl, ?_, ?_,
    abandonedEvents_idle, fun m ms hp => ⟨fun r => abandonedEvents_request hp, abandonedEvents_internal hp⟩⟩
  · simp [State.takeReset, hhost]
  · rw [hardReset_trace, abandonedEvents_takeReset]
    rfl

/-- Settles O13. -/
theorem resetValues : Obligations.ResetValues :=
  ⟨rfl, rfl, rfl, rfl, rfl⟩

/-! ## A placed register row (log entries 11 and 12) -/

theorem dropWhile_rst_of_noReset {s : State} (h : s.noReset = true) :
    s.env.host.dropWhile (fun ev => ev == HostEvent.rst) = s.env.host := by
  cases hh : s.env.host with
  | nil => rfl
  | cons ev rest =>
    have hev : ev ≠ .rst := by simpa [State.noReset, hh] using h
    exact List.dropWhile_cons_of_neg (by simpa using hev)

/-- The step on a placed write is the run of that write. -/
theorem step_placeTransaction_write {s : State} (a b : Byte) (hrst : s.noReset = true) :
    step (placeTransaction (.regWrite a b) s) = .next (run [.regWrite a b] s) := by
  have hplaced : placeTransaction (.regWrite a b) s = { s with phase := [.regWrite a b] } := by
    simp [placeTransaction, dropWhile_rst_of_noReset hrst]
  rw [hplaced]
  exact (step_busy (s := { s with phase := [.regWrite a b] }) (List.cons_ne_nil _ _) hrst).trans
    (congrArg _ (run_withPhase _ s _))

/-- The step on a placed read is the run of the read that BUS answers with the byte. -/
theorem step_placeTransaction_read {s : State} (a b : Byte) (hrst : s.noReset = true) :
    step (placeTransaction (.regRead a b) s) = .next (run [.regRead a] (s.offerByte b)) := by
  have hplaced : placeTransaction (.regRead a b) s = { s.offerByte b with phase := [.regRead a] } := by
    simp [placeTransaction, dropWhile_rst_of_noReset hrst]
  rw [hplaced]
  exact (step_busy (s := { s.offerByte b with phase := [.regRead a] }) (List.cons_ne_nil _ _) hrst).trans
    (congrArg _ (run_withPhase _ (s.offerByte b) _))

/-- Settles O7: the byte that a row places is the one that its run carries. -/
theorem stepRunsThePlacedRegisterRow : Obligations.StepRunsThePlacedRegisterRow := by
  intro s i hrow hidle hrst
  cases i with
  | regCtrlHum h =>
    rw [encode, ← encCtrlHum_setWidth, step_placeTransaction_write _ _ hrst, exec, execRegCtrlHum, hidle]
    rfl
  | regCtrlMeas t p m =>
    rw [encode, ← encCtrlMeas_setWidth, step_placeTransaction_write _ _ hrst, exec, execRegCtrlMeas, hidle]
    rfl
  | regConfig sb f =>
    rw [encode, ← encConfig_setWidth, step_placeTransaction_write _ _ hrst, exec, execRegConfig, hidle]
    rfl
  | regStatus hi m lo im =>
    rw [encode, step_placeTransaction_read _ _ hrst, exec, execRegStatus, hidle]
    rfl
  | regReset =>
    rw [encode, step_placeTransaction_write _ _ hrst, exec, execRegReset, hidle]
    rfl
  | _ => cases hrow

end Sys2Proof.Machine
end

section
/-! PROOFS. The commands of one or two transactions, whole: getters, setters, probes, SOFT_RESET, and the register rows
(spec/41_codec_config.md R145 to R156, spec/42_mode_read.md R171, R172, spec/43_system_probes.md R200 to R203). -/

namespace Sys2Proof.Machine

/-! ## Commands without traffic -/

theorem whenReady_answers {s : State} (d : BitVec 64) (hidle : s.phase = []) (hready : s.life = .ready) :
    whenIdle s (whenReady s (respond .ok d s)) = .next { s with resp := ⟨0, d⟩ } := by
  rw [whenIdle_idle _ hidle, whenReady_ready _ hready, respond_idle _ _ hidle]
  rfl

/-- R92 of one word of the table. -/
theorem decode_argumentNotZero {arg : Byte} (harg : arg ≠ 0) :
    ∀ op ∈ [(0x20 : Byte), 0x21, 0x22, 0x23, 0x24, 0x25, 0x40, 0x41, 0x42, 0x50],
      decode (.command (commandWord op arg)) = .error .argumentNotZero := by
  have hno : ∀ i, noArg arg i = .error .argumentNotZero := fun i => if_neg harg
  simp [decode, decodeCommand, hno]

/-- Settles O34. -/
theorem gettersReadTheShadow : Obligations.GettersReadTheShadow := by
  refine ⟨fun s hidle hready => ?_, fun s hidle hlife i hi => ?_, fun op hop arg harg => ?_⟩
  · exact ⟨whenReady_answers _ hidle hready, whenReady_answers _ hidle hready, whenReady_answers _ hidle hready,
      whenReady_answers _ hidle hready, whenReady_answers _ hidle hready, whenReady_answers _ hidle hready⟩
  · have hcmd : i.isCommand = true ∧ ∀ arg, i ≠ .init arg := by
      revert i
      simp [Instr.isCommand]
    exact notConstructedBeforeInit s i hcmd.1 hcmd.2 hidle hlife
  · exact decode_argumentNotZero harg op (List.mem_append_left [0x40, 0x41, 0x42, 0x50] hop)

/-- R87: a coefficient modulo 2^16. -/
theorem coeffData_eq (x : Int) : coeffData x = BitVec.ofInt 64 (x % 2 ^ 16) := by
  apply BitVec.eq_of_toNat_eq
  rw [coeffData, BitVec.toNat_setWidth_of_le (by decide), BitVec.toNat_ofInt, BitVec.toNat_ofInt]
  push_cast
  omega

/-- Settles O25. -/
theorem getCoeffReadsTheCoefficient : Obligations.GetCoeffReadsTheCoefficient := by
  intro s arg hidle
  refine ⟨notConstructedBeforeInit s (.getCoeff arg) rfl nofun hidle,
    fun hready harg => whenReady_whenLegal_refused _ hidle hready (coeffIndexLegal_eq_false.mpr harg), ?_⟩
  intro c hready hcal harg
  refine ⟨c.coeff arg.toNat, ?_, ?_⟩
  · have hlt : arg.toNat < 18 := by omega
    exact (List.getElem?_eq_getElem hlt).trans (congrArg some (List.getD_eq_getElem _ 0 hlt).symm)
  · have hcoeff : s.coeff arg.toNat = c.coeff arg.toNat := by rw [State.coeff, hcal]
    have hexec := whenReady_answers (coeffData (s.coeff arg.toNat)) hidle hready
    rw [exec, execGetCoeff, coeffIndexLegal_iff.mpr harg, ← coeffData_eq, ← hcoeff]
    exact hexec

/-! ## One transaction -/

/-- A write that completes. -/
theorem run_write_ok {s : State} {m : Micro} {a b x : Byte} (ms : List Micro) (hreq : m.request s = some (.write a b))
    (hok : s.env.busReply = .ok x) :
    run (m :: ms) s = run ms (m.complete 0 { s with
      mem := s.mem.write a.toNat b, trace := s.trace ++ [Event.write s.devAddr a b], env := s.env.afterBus }) :=
  run_done ms hreq (ask_write_ok a b hok)

/-- A read that completes. -/
theorem run_read_ok {s : State} {m : Micro} {a b : Byte} (ms : List Micro) (hreq : m.request s = some (.read a))
    (hok : s.env.busReply = .ok b) :
    run (m :: ms) s = run ms (m.complete b { s with
      trace := s.trace ++ [Event.read s.devAddr a b], env := s.env.afterBus }) :=
  run_done ms hreq (ask_read_ok a hok)

/-- A write that fails in READY (R222, R228). -/
theorem run_write_fail {s : State} {m : Micro} {a b f : Byte} (ms : List Micro)
    (hreq : m.request s = some (.write a b)) (hready : s.life = .ready) (hfail : s.env.busReply = .fail f) :
    run (m :: ms) s = { s with
      data := [], phase := [], resp := ⟨1, f.setWidth 64⟩
      trace := s.trace ++ [Event.writeFail s.devAddr a b f], env := s.env.afterBus } := by
  rw [run_failed ms hreq (ask_write_fail a b hfail), transportError_ready]
  · rfl
  · exact hready

/-- A read that fails in READY. -/
theorem run_read_fail {s : State} {m : Micro} {a f : Byte} (ms : List Micro)
    (hreq : m.request s = some (.read a)) (hready : s.life = .ready) (hfail : s.env.busReply = .fail f) :
    run (m :: ms) s = { s with
      data := [], phase := [], resp := ⟨1, f.setWidth 64⟩
      trace := s.trace ++ [Event.readFail s.devAddr a f], env := s.env.afterBus } := by
  rw [run_failed ms hreq (ask_read_fail a hfail), transportError_ready]
  · rfl
  · exact hready

/-! ## The setters of one write -/

/-- What a setter of one write does in READY: `s'` is the state with the argument stored. -/
theorem exec_setter {s : State} {i : Instr} {m : Micro} {a b : Byte} {c : DeviceConfig} (hidle : s.phase = [])
    (hready : s.life = .ready) (hstarts : Starts s i [m, .respondOk] s) (hreq : m.request s = some (.write a b))
    (hstore : ∀ u : State, u.cfg = s.cfg → m.complete 0 u = { u with cfg := c }) :
    (∀ x, s.env.busReply = .ok x → exec i s = .next { s with
      cfg := c
      resp := ⟨0, 0⟩
      mem := s.mem.write a.toNat b
      trace := s.trace ++ [Event.write s.devAddr a b]
      env := s.env.afterBus }) ∧
    (∀ f, s.env.busReply = .fail f → exec i s = .next { s with
      data := []
      resp := ⟨1, f.setWidth 64⟩
      trace := s.trace ++ [Event.writeFail s.devAddr a b f]
      env := s.env.afterBus }) := by
  refine ⟨fun x hok => ?_, fun f hfail => ?_⟩
  · rw [exec_of_starts hidle hstarts, run_write_ok _ hreq hok, hstore, run_internal [] rfl, hidle]
    · rfl
    · rfl
  · rw [exec_of_starts hidle hstarts, run_write_fail _ hreq hready hfail, hidle]

/-- Settles O29. -/
theorem setOsrsTWritesCtrlMeas : Obligations.SetOsrsTWritesCtrlMeas := by
  intro s arg hidle
  refine ⟨notConstructedBeforeInit s (.setOsrsT arg) rfl nofun hidle,
    fun hready harg => whenReady_whenLegal_refused _ hidle hready (oversamplingLegal_eq_false.mpr harg),
    fun hready harg => ⟨_, _, rfl, rfl, ?_, ?_⟩⟩
  · rw [DeviceConfig.ctrlMeas, ← argCode3_eq_setWidth, setWidth_argCode3 (by omega)]
  · exact exec_setter hidle hready (.setOsrsT hready (oversamplingLegal_iff.mpr harg)) rfl
      fun u hu => by rw [Micro.complete, hu, argCode3_eq_setWidth]

/-- Settles O30. -/
theorem setOsrsPWritesCtrlMeas : Obligations.SetOsrsPWritesCtrlMeas := by
  intro s arg hidle
  refine ⟨notConstructedBeforeInit s (.setOsrsP arg) rfl nofun hidle,
    fun hready harg => whenReady_whenLegal_refused _ hidle hready (oversamplingLegal_eq_false.mpr harg),
    fun hready harg => ⟨_, _, rfl, rfl, ?_, ?_⟩⟩
  · rw [DeviceConfig.ctrlMeas, ← argCode3_eq_setWidth, setWidth_argCode3 (by omega)]
  · exact exec_setter hidle hready (.setOsrsP hready (oversamplingLegal_iff.mpr harg)) rfl
      fun u hu => by rw [Micro.complete, hu, argCode3_eq_setWidth]

/-- Settles O31. -/
theorem setModeWritesCtrlMeas : Obligations.SetModeWritesCtrlMeas := by
  intro s arg hidle
  refine ⟨notConstructedBeforeInit s (.setMode arg) rfl nofun hidle,
    fun hready harg => whenReady_whenLegal_refused _ hidle hready (by rwa [← Bool.not_eq_true, modeLegal_iff]),
    fun hready harg => ⟨_, _, rfl, rfl, ?_, ?_⟩⟩
  · rw [DeviceConfig.ctrlMeas, ← argCode2_eq_setWidth,
      setWidth_argCode2 (toNat_lt_of_modeLegal (modeLegal_iff.mpr harg))]
  · exact exec_setter hidle hready (.setMode hready (modeLegal_iff.mpr harg)) rfl
      fun u hu => by rw [Micro.complete, hu, argCode2_eq_setWidth]

/-- Settles O32. -/
theorem setStandbyWritesConfig : Obligations.SetStandbyWritesConfig := by
  intro s arg hidle
  refine ⟨notConstructedBeforeInit s (.setStandby arg) rfl nofun hidle,
    fun hready harg => whenReady_whenLegal_refused _ hidle hready (standbyLegal_eq_false.mpr harg),
    fun hready harg => ⟨_, _, rfl, rfl, ?_, ?_⟩⟩
  · rw [DeviceConfig.config, ← argCode3_eq_setWidth, setWidth_argCode3 (by omega)]
  · exact exec_setter hidle hready (.setStandby hready (standbyLegal_iff.mpr harg)) rfl
      fun u hu => by rw [Micro.complete, hu, argCode3_eq_setWidth]

/-- Settles O33. -/
theorem setFilterWritesConfig : Obligations.SetFilterWritesConfig := by
  intro s arg hidle
  refine ⟨notConstructedBeforeInit s (.setFilter arg) rfl nofun hidle,
    fun hready harg => whenReady_whenLegal_refused _ hidle hready (filterLegal_eq_false.mpr harg),
    fun hready harg => ⟨_, _, rfl, rfl, ?_, ?_⟩⟩
  · rw [DeviceConfig.config, ← argCode3_eq_setWidth, setWidth_argCode3 (by omega)]
  · exact exec_setter hidle hready (.setFilter hready (filterLegal_iff.mpr harg)) rfl
      fun u hu => by rw [Micro.complete, hu, argCode3_eq_setWidth]

/-! ## SET_OSRS_H -/

/-- Settles O28: two writes, and the code stored between them. -/
theorem setOsrsHWritesBothRegisters : Obligations.SetOsrsHWritesBothRegisters := by
  intro s arg hidle
  refine ⟨notConstructedBeforeInit s (.setOsrsH arg) rfl nofun hidle,
    fun hready harg => whenReady_whenLegal_refused _ hidle hready (oversamplingLegal_eq_false.mpr harg),
    fun hready harg => ?_⟩
  have hlegal := oversamplingLegal_iff.mpr harg
  have hexec := exec_of_starts hidle (.setOsrsH hready hlegal)
  have hreq : (Micro.setHum arg).request s = some (.write 0xF2 arg) := by
    rw [Micro.request, encCtrlHum_of_legal hlegal]
    rfl
  refine ⟨fun x y ⟨hx, hy, _⟩ => ?_, fun f hf => ?_, fun x f hx hf => ?_⟩
  · rw [hexec, run_write_ok _ hreq hx, run_write_ok _ rfl hy, run_internal [] rfl, hidle]
    simp only [Micro.complete, argCode3_eq_setWidth, List.append_assoc]
    rfl
  · rw [hexec, run_write_fail _ hreq hready hf, hidle]
  · rw [hexec, run_write_ok _ hreq hx, run_write_fail (hreq := rfl) (hfail := hf), hidle]
    · simp only [Micro.complete, argCode3_eq_setWidth, List.append_assoc]
      rfl
    · exact hready

/-! ## Probes, identity, soft reset -/

/-- A probed bit as response data. -/
theorem setWidth_bit (b : Byte) (n : Nat) : (b.extractLsb' n 1).setWidth 64 = if b.getLsbD n then 1 else 0 := by
  have hbit : b.extractLsb' n 1 = BitVec.ofBool (b.getLsbD n) := by
    apply BitVec.eq_of_getLsbD_eq
    intro i hi
    obtain rfl : i = 0 := by omega
    simp
  rw [hbit]
  cases b.getLsbD n <;> rfl

/-- Settles O40. -/
theorem probesAndSoftReset : Obligations.ProbesAndSoftReset := by
  refine ⟨fun s b hidle hready hok => ⟨?_, ?_, ?_, ?_⟩, fun s f hidle hready hfail => ?_, fun s hidle hlife i hi => ?_,
    fun op hop arg harg => ?_⟩
  · rw [exec_of_starts hidle (.getMeasuring hready), run_read_ok [] rfl hok, hidle, ← setWidth_bit]
    rfl
  · rw [exec_of_starts hidle (.getImUpdate hready), run_read_ok [] rfl hok, hidle, ← setWidth_bit]
    rfl
  · rw [exec_of_starts hidle (.readChipId hready), run_read_ok [] rfl hok, hidle]
    rfl
  · rw [exec_of_starts hidle (.softReset hready), run_write_ok _ rfl hok, run_internal [] rfl, hidle]
    rfl
  · simp only [List.forall_mem_cons]
    refine ⟨?_, ?_, ?_, ?_, nofun⟩
    · rw [exec_of_starts hidle (.getMeasuring hready), run_read_fail [] rfl hready hfail, hidle]
      rfl
    · rw [exec_of_starts hidle (.getImUpdate hready), run_read_fail [] rfl hready hfail, hidle]
      rfl
    · rw [exec_of_starts hidle (.readChipId hready), run_read_fail [] rfl hready hfail, hidle]
      rfl
    · rw [exec_of_starts hidle (.softReset hready), run_write_fail _ rfl hready hfail, hidle]
      rfl
  · have hcmd : i.isCommand = true ∧ ∀ arg, i ≠ .init arg := by
      revert i
      simp [Instr.isCommand]
    exact notConstructedBeforeInit s i hcmd.1 hcmd.2 hidle hlife
  · exact decode_argumentNotZero harg op (List.mem_append_right [0x20, 0x21, 0x22, 0x23, 0x24, 0x25] hop)

/-! ## The register rows (log entry 11) -/

/-- A row's write on an idle block that completes. -/
theorem run_regWrite_ok {s : State} {x : Byte} (a b : Byte) (hidle : s.phase = []) (hok : s.env.busReply = .ok x) :
    run (.regWrite a b :: s.phase) s = { s with
      mem := s.mem.write a.toNat b, trace := s.trace ++ [Event.write s.devAddr a b], env := s.env.afterBus } := by
  rw [hidle, run_write_ok [] rfl hok, hidle]
  rfl

/-- Settles O41: the bytes are the fields side by side. -/
theorem registerRowsAreOneTransaction : Obligations.RegisterRowsAreOneTransaction := by
  intro s hidle
  refine ⟨fun x hok => ⟨fun h => ?_, fun t p m => ?_, fun sb f => ?_, ?_⟩, fun hi m lo im => ?_⟩
  · rw [← encCtrlHum_setWidth]
    exact congrArg _ (run_regWrite_ok _ _ hidle hok)
  · rw [← encCtrlMeas_setWidth]
    exact congrArg _ (run_regWrite_ok _ _ hidle hok)
  · rw [← encConfig_setWidth]
    exact congrArg _ (run_regWrite_ok _ _ hidle hok)
  · exact congrArg _ (run_regWrite_ok _ _ hidle hok)
  · have hok : (s.offerByte (hi ++ m ++ lo ++ im)).env.busReply = .ok (hi ++ m ++ lo ++ im) := rfl
    rw [exec, execRegStatus, hidle, regStatusByte, run_read_ok [] rfl hok]
    rfl

end Sys2Proof.Machine
end

section
/-! PROOFS. READ (spec/42_mode_read.md R177 to R182). -/

namespace Sys2Proof.Machine

/-! ## The data reads -/

/-- The data reads that remain after `n` of them. -/
theorem dataReads_eq_append {n : Nat} (hn : n ≤ 8) :
    dataReads = (List.range' 0 n).map Micro.readData ++ (List.range' n (8 - n)).map Micro.readData := by
  rw [← List.map_append, dataReads, List.range_eq_range', ← Nat.add_sub_cancel' hn, ← List.range'_append_1]
  simp

/-- All eight reads are answered. -/
theorem run_dataReads_ok {s : State} {d : List Byte} (rest : List Micro) (hd : d.length = 8) (hans : s.env.answers d) :
    run (dataReads ++ rest) s = run rest { s with
      data := s.data ++ d, trace := s.trace ++ dataTrace s.devAddr d, env := s.env.afterBusN 8 } := by
  have hreads : dataReads = (List.range' 0 d.length).map Micro.readData := by rw [hd]; rfl
  rw [hreads, run_dataReads rest d 0 s hans, hd]
  rfl

/-- The read after `before` fails. -/
theorem run_dataReads_fail {s : State} {before : List Byte} {f : Token} (rest : List Micro) (hready : s.life = .ready)
    (hlen : before.length < 8) (hans : s.env.answers before)
    (hfail : (s.env.afterBusN before.length).busReply = .fail f) :
    run (dataReads ++ rest) s = { s with
      data := []
      phase := []
      resp := ⟨1, f.setWidth 64⟩
      trace := s.trace ++ dataTrace s.devAddr before ++
        [Event.readFail s.devAddr (0xF7 + BitVec.ofNat 8 before.length) f]
      env := (s.env.afterBusN before.length).afterBus } := by
  have hnext : List.range' before.length (8 - before.length) =
      before.length :: List.range' (before.length + 1) (7 - before.length) := by
    rw [show 8 - before.length = 7 - before.length + 1 by omega, List.range'_succ]
  rw [dataReads_eq_append hlen.le, List.append_assoc, run_dataReads _ before 0 s hans, hnext, List.map_cons,
    List.cons_append, run_read_fail (hreq := rfl) (hfail := hfail)]
  · rfl
  · exact hready

/-! ## Settled -/

/-- What READ does after the delay, if there is one, and the reads (R177, R179). -/
theorem run_deliver (forced : Bool) (s : State) :
    run [.deliver forced] s = { s with
      cfg := if forced then { s.cfg with mode := modeSleep } else s.cfg
      data := []
      phase := []
      resp := ⟨0, (sampleOf s.data).toData⟩ } := by
  rw [run_internal [] rfl]
  rfl

/-- In Forced a READ waits first (R175, R177). -/
theorem exec_read_forced {s : State} (hidle : s.phase = []) (hready : s.life = .ready) (hmode : s.cfg.mode = 1)
    (hdelay : s.env.delayReply = .elapsed) :
    exec .read s = .next (run (dataReads ++ [Micro.deliver true]) { s with
      data := [], trace := s.trace ++ [Event.delay s.cfg.durationUs], env := s.env.afterDelay }) := by
  rw [exec_of_starts hidle (.read hready), hmode]
  exact congrArg _ (run_done (m := .waitSample) _ rfl (ask_delay_elapsed (s := { s with data := [] }) _ hdelay))

/-- In Normal and Sleep it does not (R180, R181). -/
theorem exec_read_unforced {s : State} (hidle : s.phase = []) (hready : s.life = .ready) (hmode : s.cfg.mode ≠ 1) :
    exec .read s = .next (run (dataReads ++ [Micro.deliver false]) { s with data := [] }) := by
  have hforced : (s.cfg.mode == modeForced) = false := beq_eq_false_iff_ne.mpr hmode
  rw [exec_of_starts hidle (.read hready), hforced]
  rfl

/-- Settles O35. -/
theorem forcedReadWaitsAndReverts : Obligations.ForcedReadWaitsAndReverts := by
  intro s d0 d1 d2 d3 d4 d5 d6 d7 hidle hready hmode hdelay hans
  have hduration := (durationFormula s.cfg.osrsT.toNat s.cfg.osrsP.toNat s.cfg.osrsH.toNat).1
  rw [exec_read_forced hidle hready hmode hdelay, run_dataReads_ok (d := [d0, d1, d2, d3, d4, d5, d6, d7]),
    run_deliver, ← hduration, hidle]
  · simp only [List.append_assoc]
    rfl
  · rfl
  · exact hans

/-- Settles O36. -/
theorem unforcedReadOnlyReads : Obligations.UnforcedReadOnlyReads := by
  intro s d0 d1 d2 d3 d4 d5 d6 d7 hidle hready hmode hans
  rw [exec_read_unforced hidle hready hmode, run_dataReads_ok (d := [d0, d1, d2, d3, d4, d5, d6, d7]), run_deliver,
    hidle]
  · rfl
  · rfl
  · exact hans

/-- Settles O37: the delay comes before the reads, the revert after them. -/
theorem failedReadKeepsTheMode : Obligations.FailedReadKeepsTheMode := by
  intro s before f hidle hready hlen
  refine ⟨fun hmode ⟨hans, hfail⟩ => ?_, fun hmode hdelay ⟨hans, hfail⟩ => ?_⟩
  · rw [exec_read_unforced hidle hready hmode, run_dataReads_fail (hlen := hlen) (f := f), hidle]
    · exact hready
    · exact hans
    · exact hfail
  · rw [exec_read_forced hidle hready hmode hdelay, run_dataReads_fail (hlen := hlen) (f := f), hidle]
    · exact hready
    · exact hans
    · exact hfail

end Sys2Proof.Machine
end

section
/-! PROOFS. INIT (spec/40_calibration.md R110, R111, R119, R122). -/

namespace Sys2Proof.Machine

/-! ## INIT whose transactions complete -/

/-- What INIT does after its reads, when its three writes complete. -/
theorem run_initTail_ok {s : State} {w1 w2 w3 : Byte} (hans : s.env.answers [w1, w2, w3]) :
    run initTail s = { s with
      life := .ready
      cal := some (parseCalibration s.rawCal)
      cfg := ⟨1, 1, 1, 0, 5, 0⟩
      phase := []
      resp := ⟨0, 0⟩
      mem := ((s.mem.write 0xF2 0x01).write 0xF4 0x24).write 0xF5 0xA0
      trace := s.trace ++ [Event.write s.devAddr 0xF2 0x01, .write s.devAddr 0xF4 0x24, .write s.devAddr 0xF5 0xA0]
      env := s.env.afterBusN 3 } := by
  obtain ⟨h1, h2, h3, _⟩ := hans
  rw [initTail, run_internal _ rfl, run_write_ok (s := Micro.parse.complete 0 s) _ rfl h1,
    run_write_ok _ rfl h2, run_write_ok _ rfl h3, run_internal _ rfl, run_internal _ rfl]
  simp only [Micro.complete, List.append_assoc]
  rfl

/-- Settles O17: the reads gather the image (`run_calibReads`), and the rest of INIT parses it. -/
theorem initConstructs : Obligations.InitConstructs := by
  intro s arg w1 w2 w3 raw hidle hlife harg hraw hans
  rw [answers_append, hraw] at hans
  obtain ⟨hreads, hwrites⟩ := hans
  have hcalib : calibReads = (List.range' 0 raw.length).map Micro.readCal := by rw [hraw]; rfl
  rw [exec_of_starts hidle (.init hlife (addressLegal_iff.mpr harg)), hcalib, run_calibReads, run_initTail_ok
    (w1 := w1) (w2 := w2) (w3 := w3), hraw, hidle]
  · simp only [List.nil_append]
    rfl
  · rwa [hraw]
  · exact hreads

/-! ## INIT before it makes the block READY -/

/-- The micro-steps of INIT before the block is READY. -/
def initWork : List Micro := calibReads ++ [Micro.parse, .pushHum, .pushMeas, .pushConfig]

theorem calibReads_append_initTail : calibReads ++ initTail = initWork ++ [Micro.becomeReady, .respondOk] := by
  rw [initWork, List.append_assoc]
  rfl

/-- INIT's micro-steps before the block is READY are the parse, and bus transactions that keep the lifecycle. -/
theorem initWork_cases {m : Micro} (hm : m ∈ initWork) :
    m = .parse ∨ (m ≠ .parse ∧ (∀ b s, (m.complete b s).life = s.life) ∧
      ∀ s, ∃ r, m.request s = some r ∧ r.isBus = true) := by
  obtain hm | hm := List.mem_append.mp hm
  · obtain ⟨i, -, rfl⟩ := mem_calibReads.mp hm
    exact .inr ⟨nofun, fun _ _ => rfl, fun _ => ⟨_, rfl, rfl⟩⟩
  · simp only [List.mem_cons, List.not_mem_nil, or_false] at hm
    obtain rfl | rfl | rfl | rfl := hm
    · exact .inl rfl
    all_goals exact .inr ⟨nofun, fun _ _ => rfl, fun _ => ⟨_, rfl, rfl⟩⟩

/-- How many transactions these micro-steps of INIT make. -/
def transactions (ms : List Micro) : Nat := ms.countP (· ≠ .parse)

theorem transactions_initWork : transactions initWork = 35 := by decide

/-- If the transaction after `before` fails, the run ends there. -/
theorem run_fails_after {ms rest : List Micro} {before : List Byte} {f : Token} {s : State}
    (hms : ∀ m ∈ ms, m ∈ initWork) (hlife : s.life = .unconstructed) (hlen : before.length < transactions ms)
    (hans : s.env.answers before)
    (hfail : (s.env.afterBusN before.length).busReply = .fail f) :
    ∃ u, run (ms ++ rest) s = transportError f u ∧ u.life = .unconstructed ∧
      u.trace.length = s.trace.length + before.length + 1 ∧ ∃ ev ∈ u.trace.getLast?, ev.failed = true := by
  induction ms generalizing before s with
  | nil => simp [transactions] at hlen
  | cons m ms ih =>
    have hms' := fun m' hm' => hms m' (List.mem_cons_of_mem m hm')
    obtain rfl | ⟨hne, hkeeps, hreq⟩ := initWork_cases (hms m List.mem_cons_self)
    · rw [List.cons_append, run_internal _ rfl]
      exact ih (s := Micro.parse.complete 0 s) hms' hlife (by simpa [transactions] using hlen) hans hfail
    · obtain ⟨r, hr, hbus⟩ := hreq s
      cases before with
      | nil =>
        refine ⟨_, run_failed _ hr (ask_bus_fail hbus hfail), hlife, by simp, r.failure s.devAddr f, by simp, ?_⟩
        exact Request.failure_failed hbus _ f
      | cons b bs =>
        obtain ⟨hb, hbs⟩ := hans
        rw [List.cons_append, run_done _ hr (ask_bus_ok hbus hb)]
        obtain ⟨u, hu, hul, htrace, hlast⟩ := ih (before := bs)
          (s := m.complete (r.returned b) (s.answered r (r.returned b) s.env.afterBus)) hms'
          (by rw [hkeeps, answered_life, hlife]) (by simpa [transactions, hne] using hlen)
          (by rwa [complete_env]) (by rwa [complete_env])
        refine ⟨u, hu, hul, ?_, hlast⟩
        simp only [htrace, complete_trace, answered_trace, List.length_append, List.length_cons, List.length_nil]
        omega

/-- Settles O18: INIT fails before it makes the block READY, and a failure in UNCONSTRUCTED leaves no coefficients. -/
theorem failedInitStaysUnconstructed : Obligations.FailedInitStaysUnconstructed := by
  intro s arg before f hidle hlife harg hlen hans hfail
  obtain ⟨u, hu, hul, htrace, hlast⟩ := run_fails_after (rest := [.becomeReady, .respondOk])
    (s := { s with devAddr := argDevAddr arg, rawCal := [] }) (fun _ h => h) hlife
    (transactions_initWork.symm ▸ hlen) hans hfail
  refine ⟨transportError f u, ?_, by simpa using hul, by simp, by simp, ?_, by simpa using htrace, by simpa using hlast⟩
  · rw [exec_of_starts hidle (.init hlife (addressLegal_iff.mpr harg)), calibReads_append_initTail, hu]
  · rw [transportError_unconstructed f hul]
    rfl

/-- Either BUS answers all the transactions, or the block stays in its lifecycle state. -/
theorem answers_or_run_life {ms rest : List Micro} {s : State} (hms : ∀ m ∈ ms, m ∈ initWork) :
    (∃ bs, bs.length = transactions ms ∧ s.env.answers bs) ∨ (run (ms ++ rest) s).life = s.life := by
  induction ms generalizing s with
  | nil => exact .inl ⟨[], rfl, trivial⟩
  | cons m ms ih =>
    have hms' := fun m' hm' => hms m' (List.mem_cons_of_mem m hm')
    obtain rfl | ⟨hne, hkeeps, hreq⟩ := initWork_cases (hms m List.mem_cons_self)
    · rw [List.cons_append, run_internal _ rfl]
      simpa [transactions, Micro.complete] using ih (s := Micro.parse.complete 0 s) hms'
    · obtain ⟨r, hr, hbus⟩ := hreq s
      rw [List.cons_append]
      cases hreply : s.env.busReply with
      | ok x =>
        rw [run_done _ hr (ask_bus_ok hbus hreply)]
        obtain ⟨bs, hlen, hbs⟩ | hrun := ih
          (s := m.complete (r.returned x) (s.answered r (r.returned x) s.env.afterBus)) hms'
        · rw [complete_env] at hbs
          exact .inl ⟨x :: bs, by simpa [transactions, hne] using hlen, hreply, hbs⟩
        · exact .inr (by rw [hrun, hkeeps, answered_life])
      | fail f =>
        rw [run_failed _ hr (ask_bus_fail hbus hreply)]
        exact .inr (transportError_life _ _)
      | pending =>
        rw [run_blocked _ hr (ask_bus_pending hbus hreply)]
        exact .inr rfl

end Sys2Proof.Machine
end

section
/-! PROOFS. The frames (spec/10_state.md R20 to R26, spec/41_codec_config.md R144, spec/42_mode_read.md R173,
spec/43_system_probes.md R204, spec/20_memory.md R69): what a command leaves unchanged, and what it adds to the trace. -/

namespace Sys2Proof.Machine

/-! ## The block's identity -/

/-- The micro-steps of INIT that write the lifecycle, the coefficients or `raw_cal`. -/
def Micro.writesInstance : Micro → Bool
  | .readCal _ | .parse | .becomeReady => true
  | _ => false

/-- Two states of one constructed block, with the same coefficients (R20 to R27). -/
structure SameInstance (s t : State) : Prop where
  life : t.life = s.life
  devAddr : t.devAddr = s.devAddr
  cal : t.cal = s.cal
  rawCal : t.rawCal = s.rawCal

theorem SameInstance.refl (s : State) : SameInstance s s := ⟨rfl, rfl, rfl, rfl⟩

theorem SameInstance.trans {s t u : State} (h : SameInstance s t) (h' : SameInstance t u) : SameInstance s u :=
  ⟨h'.life.trans h.life, h'.devAddr.trans h.devAddr, h'.cal.trans h.cal, h'.rawCal.trans h.rawCal⟩

theorem sameInstance_complete {m : Micro} (hm : m.writesInstance = false) (b : Byte) (s : State) :
    SameInstance s (m.complete b s) := by
  cases m with
  | readCal | parse | becomeReady => cases hm
  | _ => exact ⟨rfl, rfl, rfl, rfl⟩

theorem sameInstance_transportError {s : State} (hready : s.life = .ready) (f : Token) :
    SameInstance s (transportError f s) := by
  rw [transportError_ready f hready]
  exact ⟨rfl, rfl, rfl, rfl⟩

/-- In READY only INIT's own micro-steps write these registers. -/
theorem run_sameInstance {ms : List Micro} {s : State} (hready : s.life = .ready)
    (hms : ∀ m ∈ ms, m.writesInstance = false) : SameInstance s (run ms s) := by
  refine run_induction (I := fun ms u => SameInstance s u ∧ ∀ m ∈ ms, m.writesInstance = false) (Q := SameInstance s)
    ?done ?internal ?answered ?failed ?blocked ms s ⟨.refl s, hms⟩
  case done => exact fun u ⟨h, _⟩ => h.trans ⟨rfl, rfl, rfl, rfl⟩
  case internal =>
    rintro m ms u ⟨h, hall⟩ -
    rw [List.forall_mem_cons] at hall
    exact ⟨h.trans (sameInstance_complete hall.1 0 u), hall.2⟩
  case answered =>
    rintro m ms u r b e ⟨h, hall⟩ - -
    rw [List.forall_mem_cons] at hall
    have hu : SameInstance u (u.answered r b e) := ⟨rfl, rfl, rfl, rfl⟩
    exact ⟨h.trans (hu.trans (sameInstance_complete hall.1 b _)), hall.2⟩
  case failed =>
    rintro m ms u r f e ⟨h, -⟩ - -
    have hu : SameInstance u (u.failed r f e) := ⟨rfl, rfl, rfl, rfl⟩
    exact h.trans (hu.trans (sameInstance_transportError ((h.trans hu).life.trans hready) f))
  case blocked => exact fun m ms u r e ⟨h, _⟩ _ _ => h.trans ⟨rfl, rfl, rfl, rfl⟩

theorem mem_dataReads {m : Micro} : m ∈ dataReads ↔ ∃ j < 8, m = .readData j := by
  simp [dataReads, eq_comm]

/-- The micro-steps of a READ. -/
theorem mem_readSteps {m : Micro} {forced : Bool} (h : m ∈ readSteps forced) :
    m = .waitSample ∨ (∃ j < 8, m = .readData j) ∨ m = .deliver forced := by
  simp only [readSteps, List.mem_append, mem_dataReads, List.mem_singleton] at h
  obtain (h | h) | h := h
  · cases forced <;> simp_all
  · exact .inr (.inl h)
  · exact .inr (.inr h)

/-- A command other than INIT runs in READY, and none of its micro-steps writes these registers. -/
theorem Starts.not_init {s u : State} {i : Instr} {ms : List Micro} (h : Starts s i ms u) (hi : ∀ arg, i ≠ .init arg) :
    s.life = .ready ∧ SameInstance s u ∧ ∀ m ∈ ms, m.writesInstance = false := by
  cases h with
  | init => exact absurd rfl (hi _)
  | read hlife =>
    refine ⟨hlife, ⟨rfl, rfl, rfl, rfl⟩, fun m hm => ?_⟩
    obtain rfl | ⟨j, -, rfl⟩ | rfl := mem_readSteps hm <;> rfl
  | setOsrsH hlife | setOsrsT hlife | setOsrsP hlife | setMode hlife | setStandby hlife | setFilter hlife =>
    exact ⟨hlife, .refl s, by simp [Micro.writesInstance]⟩
  | getMeasuring hlife | getImUpdate hlife | readChipId hlife | softReset hlife =>
    exact ⟨hlife, .refl s, by simp [Micro.writesInstance]⟩

theorem exec_sameInstance {s t : State} {i : Instr} (hcmd : i.isCommand = true) (hi : ∀ arg, i ≠ .init arg)
    (h : exec i s = .next t) : SameInstance s t := by
  cases commandResult_of_exec hcmd h with
  | refused st d | answered d => exact ⟨rfl, rfl, rfl, rfl⟩
  | ran hstarts =>
    obtain ⟨hready, hsame, hms⟩ := hstarts.not_init hi
    exact hsame.trans (run_sameInstance (hsame.life.trans hready) hms)

/-- Settles O42. -/
theorem onlyInitWritesTheInstance : Obligations.OnlyInitWritesTheInstance := by
  intro s t i hcmd hi h
  obtain ⟨hlife, hdev, hcal, hraw⟩ := exec_sameInstance hcmd hi h
  exact ⟨hlife, hdev, hcal, hraw⟩

/-! ## DeviceConfig -/

/-- The micro-step changes what the command may change. -/
def Micro.KeepsFrame (i : Instr) (m : Micro) : Prop :=
  ∀ c b u, cfgFrame i c u.cfg = true → cfgFrame i c (m.complete b u).cfg = true

/-- The micro-steps that write DeviceConfig. -/
def Micro.writesConfig : Micro → Bool
  | .parse | .setHum _ | .setTemp _ | .setPress _ | .setMode _ | .setStandby _ | .setFilter _ | .deliver true => true
  | _ => false

theorem complete_cfg {m : Micro} (hm : m.writesConfig = false) (b : Byte) (s : State) :
    (m.complete b s).cfg = s.cfg := by
  cases m with
  | parse | setHum | setTemp | setPress | setMode | setStandby | setFilter => cases hm
  | deliver forced =>
    cases forced with
    | true => cases hm
    | false => rfl
  | _ => rfl

theorem keepsFrame_of_not_writesConfig (i : Instr) {m : Micro} (hm : m.writesConfig = false) : m.KeepsFrame i :=
  fun _ b u hu => (complete_cfg hm b u).symm ▸ hu

theorem cfgFrame_refl (i : Instr) (c : DeviceConfig) : cfgFrame i c c = true := by
  cases i <;> simp [cfgFrame]

/-- What a command other than INIT stores lies in its own field. -/
theorem Starts.keepsFrame {s u : State} {i : Instr} {ms : List Micro} (h : Starts s i ms u)
    (hi : ∀ arg, i ≠ .init arg) : u.cfg = s.cfg ∧ ∀ m ∈ ms, m.KeepsFrame i := by
  cases h with
  | init => exact absurd rfl (hi _)
  | read hlife =>
    refine ⟨rfl, fun m hm => ?_⟩
    obtain rfl | ⟨j, -, rfl⟩ | rfl := mem_readSteps hm
    · exact keepsFrame_of_not_writesConfig _ rfl
    · exact keepsFrame_of_not_writesConfig _ rfl
    · intro c b u hu
      simp only [cfgFrame, beq_iff_eq, Micro.complete, respond_cfg] at hu ⊢
      split
      · exact congrArg (fun d : DeviceConfig => { d with mode := modeSleep }) hu
      · exact hu
  | setOsrsH | setOsrsT | setOsrsP | setMode | setStandby | setFilter =>
    refine ⟨rfl, List.forall_mem_cons.mpr ⟨fun c b u hu => ?_, ?_⟩⟩
    · simp only [cfgFrame, beq_iff_eq, Micro.complete] at hu ⊢
      rw [hu]
    · exact fun m hm => keepsFrame_of_not_writesConfig _ (by revert m; simp [Micro.writesConfig])
  | getMeasuring | getImUpdate | readChipId | softReset =>
    exact ⟨rfl, fun m hm => keepsFrame_of_not_writesConfig _ (by revert m; simp [Micro.writesConfig])⟩

theorem run_cfgFrame {i : Instr} {ms : List Micro} {s : State} {c : DeviceConfig} (hready : s.life = .ready)
    (hms : ∀ m ∈ ms, m.writesInstance = false ∧ m.KeepsFrame i) (hc : cfgFrame i c s.cfg = true) :
    cfgFrame i c (run ms s).cfg = true := by
  refine run_induction (I := fun ms u => u.life = .ready ∧ cfgFrame i c u.cfg = true ∧
      ∀ m ∈ ms, m.writesInstance = false ∧ m.KeepsFrame i) (Q := fun t => cfgFrame i c t.cfg = true)
    ?done ?internal ?answered ?failed ?blocked ms s ⟨hready, hc, hms⟩
  case done => exact fun u ⟨_, h, _⟩ => h
  case internal =>
    rintro m ms u ⟨hl, h, hall⟩ -
    rw [List.forall_mem_cons] at hall
    exact ⟨(sameInstance_complete hall.1.1 0 u).life.trans hl, hall.1.2 c 0 u h, hall.2⟩
  case answered =>
    rintro m ms u r b e ⟨hl, h, hall⟩ - -
    rw [List.forall_mem_cons] at hall
    exact ⟨(sameInstance_complete hall.1.1 b _).life.trans hl, hall.1.2 c b _ h, hall.2⟩
  case failed =>
    rintro m ms u r f e ⟨hl, h, -⟩ - -
    rwa [transportError_ready (s := u.failed r f e) f hl]
  case blocked => exact fun m ms u r e ⟨_, h, _⟩ _ _ => h

/-- Settles O43. -/
theorem shadowFrame : Obligations.ShadowFrame := by
  intro s t i hcmd hi h
  cases commandResult_of_exec hcmd h with
  | refused st d | answered d => exact cfgFrame_refl i s.cfg
  | ran hstarts =>
    obtain ⟨hready, hsame, hms⟩ := hstarts.not_init hi
    obtain ⟨hcfg, hkeeps⟩ := hstarts.keepsFrame hi
    exact run_cfgFrame (hsame.life.trans hready) (fun m hm => ⟨hms m hm, hkeeps m hm⟩) (hcfg ▸ cfgFrame_refl i _)

end Sys2Proof.Machine
end

section
/-! PROOFS. The traffic of a command (spec/20_memory.md R58, R61, R69): its trace entries begin its row, and its
writes are those of the row. -/

namespace Sys2Proof.Machine

/-- The access a micro-step makes, if it makes one: it does not depend on the state. -/
def Micro.access : Micro → Option Access
  | .readCal i => some (.read (calibAddr i))
  | .pushHum | .setHum _ => some (.write addrCtrlHum)
  | .pushMeas | .setTemp _ | .setPress _ | .setMode _ => some (.write addrCtrlMeas)
  | .pushConfig | .setStandby _ | .setFilter _ => some (.write addrConfig)
  | .waitSample => some .delay
  | .readData j => some (.read (addrData + BitVec.ofNat 8 j))
  | .probe _ => some (.read addrStatus)
  | .chipId => some (.read addrChipId)
  | .softReset => some (.write addrReset)
  | .regWrite a _ => some (.write a)
  | .regRead a => some (.read a)
  | .parse | .becomeReady | .deliver _ | .respondOk => none

theorem access_eq (m : Micro) (s : State) : m.access = (m.request s).map Request.access := by
  cases m <;> rfl

/-- The accesses of the micro-steps that remain. -/
def accessesOf (ms : List Micro) : List Access := ms.filterMap Micro.access

theorem accessesOf_cons_internal {m : Micro} {s : State} (ms : List Micro) (h : m.request s = none) :
    accessesOf (m :: ms) = accessesOf ms :=
  List.filterMap_cons_none (by rw [access_eq m s, h]; rfl)

theorem accessesOf_cons_request {m : Micro} {s : State} {r : Request} (ms : List Micro) (h : m.request s = some r) :
    accessesOf (m :: ms) = r.access :: accessesOf ms :=
  List.filterMap_cons_some (by rw [access_eq m s, h]; rfl)

/-- A command's micro-steps make the accesses of its row (R69). -/
theorem Starts.accesses {s u : State} {i : Instr} {ms : List Micro} (h : Starts s i ms u) :
    accessesOf ms = accesses (s.cfg.mode == modeForced) i := by
  cases h with
  | read => cases s.cfg.mode == modeForced <;> rfl
  | _ => rfl

/-! ## The entries of the trace -/

theorem Event.request_access_event (r : Request) (dev : DevAddr) (b : Byte) :
    (r.event dev b).request.access = r.access := by
  rw [Request.event_request]

theorem Event.request_access_failure (r : Request) (dev : DevAddr) (f : Token) :
    (r.failure dev f).request.access = r.access := by
  rw [Request.failure_request]

/-- `t` adds to the trace of `s` entries of the device `dev` with these accesses. -/
def Adds (dev : DevAddr) (s t : State) (as : List Access) : Prop :=
  ∃ evs, t.trace = s.trace ++ evs ∧ (∀ ev ∈ evs, ev.dev = none ∨ ev.dev = some dev) ∧
    evs.map (fun ev => ev.request.access) = as

theorem Adds.nil (dev : DevAddr) {s t : State} (h : t.trace = s.trace) : Adds dev s t [] :=
  ⟨[], by simp [h], nofun, rfl⟩

theorem Adds.snoc {dev : DevAddr} {s t u : State} {as : List Access} {ev : Event} (h : Adds dev s t as)
    (hu : u.trace = t.trace ++ [ev]) (hdev : ev.dev = none ∨ ev.dev = some dev) :
    Adds dev s u (as ++ [ev.request.access]) := by
  obtain ⟨evs, htrace, hevs, hmap⟩ := h
  refine ⟨evs ++ [ev], by rw [hu, htrace, List.append_assoc], ?_, by simp [hmap]⟩
  simpa [or_imp, forall_and] using ⟨hevs, hdev⟩

theorem Adds.congr {dev : DevAddr} {s t u : State} {as : List Access} (h : Adds dev s t as) (hu : u.trace = t.trace) :
    Adds dev s u as := by
  rwa [Adds, hu]

/-- A run adds the beginning of what its micro-steps ask for, and all of it if it ends with OK. -/
theorem run_adds (ms : List Micro) (s : State) :
    ∃ as, Adds s.devAddr s (run ms s) as ∧ as <+: accessesOf ms ∧
      ((run ms s).phase = [] → (run ms s).resp.status = 0 → as = accessesOf ms) := by
  refine run_induction
    (I := fun ms' u => u.devAddr = s.devAddr ∧ ∃ as, Adds s.devAddr s u as ∧ as ++ accessesOf ms' = accessesOf ms)
    (Q := fun t => ∃ as, Adds s.devAddr s t as ∧ as <+: accessesOf ms ∧
      (t.phase = [] → t.resp.status = 0 → as = accessesOf ms))
    ?done ?internal ?answered ?failed ?blocked ms s ⟨rfl, [], .nil _ rfl, rfl⟩
  case done =>
    rintro u ⟨-, as, has, hall⟩
    rw [accessesOf, List.filterMap_nil, List.append_nil] at hall
    exact ⟨as, has, hall ▸ List.prefix_rfl, fun _ _ => hall⟩
  case internal =>
    rintro m ms' u ⟨hdev, as, has, hall⟩ hr
    rw [accessesOf_cons_internal ms' hr] at hall
    exact ⟨(complete_devAddr m 0 u).trans hdev, as, has.congr (complete_trace m 0 u), hall⟩
  case answered =>
    rintro m ms' u r b e ⟨hdev, as, has, hall⟩ hr -
    rw [accessesOf_cons_request ms' hr] at hall
    refine ⟨(complete_devAddr _ _ _).trans hdev, as ++ [r.access], ?_, by simpa using hall⟩
    have hadds := has.snoc (u := u.answered r b e) rfl (hdev ▸ Request.event_dev u.devAddr b r)
    rw [Event.request_access_event] at hadds
    exact hadds.congr (complete_trace _ _ _)
  case failed =>
    rintro m ms' u r f e ⟨hdev, as, has, hall⟩ hr -
    rw [accessesOf_cons_request ms' hr] at hall
    have hadds := has.snoc (u := u.failed r f e) rfl (hdev ▸ Request.failure_dev u.devAddr f r)
    rw [Event.request_access_failure] at hadds
    refine ⟨as ++ [r.access], hadds.congr (transportError_trace _ _), ⟨accessesOf ms', by simpa using hall⟩, ?_⟩
    intro _ hok
    rw [transportError_resp] at hok
    cases hok
  case blocked =>
    rintro m ms' u r e ⟨-, as, has, hall⟩ - -
    exact ⟨as, has.congr rfl, ⟨_, hall⟩, nofun⟩

theorem length_accesses_le (forced : Bool) (i : Instr) : (accesses forced i).length ≤ 35 := by
  cases i with
  | read => cases forced <;> decide
  | _ => simp [accesses]

/-- Settles O45: a run adds the beginning of the accesses of its micro-steps (`run_adds`), the command's row. -/
theorem commandTrafficIsBounded : Obligations.CommandTrafficIsBounded := by
  intro s t i hcmd h
  have hresult : ∃ as dev, Adds dev s t as ∧ (s.life = .ready → dev = s.devAddr) ∧
      as <+: accesses (s.cfg.mode == modeForced) i ∧
      (t.phase = [] → t.resp.status = 0 → as = accesses (s.cfg.mode == modeForced) i) := by
    cases commandResult_of_exec hcmd h with
    | refused st d hst =>
      refine ⟨[], s.devAddr, .nil _ rfl, fun _ => rfl, List.nil_prefix, fun _ hok => ?_⟩
      cases st with
      | ok => exact absurd rfl hst
      | _ => cases hok
    | answered d hlife hnone =>
      exact ⟨[], s.devAddr, .nil _ rfl, fun _ => rfl, List.nil_prefix, fun _ _ => (hnone _).symm⟩
    | @ran ms u hstarts =>
      obtain ⟨as, has, hprefix, hok⟩ := run_adds ms u
      rw [hstarts.accesses] at hprefix hok
      have hu : u.trace = s.trace ∧ (s.life = .ready → u.devAddr = s.devAddr) := by
        cases hstarts with
        | init hlife => exact ⟨rfl, fun hready => by cases hlife.symm.trans hready⟩
        | _ => exact ⟨rfl, fun _ => rfl⟩
      exact ⟨as, u.devAddr, by rwa [Adds, ← hu.1], hu.2, hprefix, hok⟩
  obtain ⟨as, dev, ⟨evs, htrace, hdevs, rfl⟩, hdev, hprefix, hok⟩ := hresult
  have hlen := hprefix.length_le.trans (length_accesses_le _ _)
  exact ⟨evs, dev, htrace, by simpa using hlen, hdev, hdevs, hprefix, hok⟩

/-! ## The register space -/

/-- A run changes the register space at the addresses of its writes alone. -/
theorem run_mem_read {ms : List Micro} {s : State} {a : Nat} (h : ∀ x, .write x ∈ accessesOf ms → a ≠ x.toNat) :
    (run ms s).mem.read a = s.mem.read a := by
  refine run_induction
    (I := fun ms' u => (∀ x, .write x ∈ accessesOf ms' → a ≠ x.toNat) ∧ u.mem.read a = s.mem.read a)
    (Q := fun t => t.mem.read a = s.mem.read a) ?done ?internal ?answered ?failed ?blocked ms s ⟨h, rfl⟩
  case done => exact fun u ⟨_, hu⟩ => hu
  case internal =>
    rintro m ms' u ⟨hall, hu⟩ hr
    rw [accessesOf_cons_internal ms' hr] at hall
    exact ⟨hall, by rwa [complete_mem]⟩
  case answered =>
    rintro m ms' u r b e ⟨hall, hu⟩ hr -
    rw [accessesOf_cons_request ms' hr] at hall
    refine ⟨fun x hx => hall x (List.mem_cons_of_mem _ hx), ?_⟩
    rw [complete_mem, answered_mem, ← hu]
    cases r with
    | read | delay => rfl
    | write x y => exact Memory.read_write_other _ y (hall x List.mem_cons_self)
  case failed =>
    rintro m ms' u r f e ⟨-, hu⟩ - -
    rwa [transportError_mem]
  case blocked => exact fun m ms' u r e ⟨_, hu⟩ _ _ => hu

/-- The writes of a row are to the registers it stores to. -/
theorem mem_storedAddrs_of_write {forced : Bool} {i : Instr} {x : Byte} (h : .write x ∈ accesses forced i) :
    x ∈ storedAddrs i := by
  cases i with
  | init | read => cases forced <;> simp_all [accesses, storedAddrs]
  | _ => simp_all [accesses, storedAddrs]

/-- What an instruction on an idle block does: it responds, or it runs micro-steps with the accesses of its row. -/
theorem exec_responds_or_runs {s t : State} {i : Instr} (hidle : s.phase = []) (h : exec i s = .next t) :
    (∃ st d, t = respond st d s) ∨
      ∃ ms u, t = run ms u ∧ u.mem = s.mem ∧ accessesOf ms = accesses (s.cfg.mode == modeForced) i := by
  cases hcmd : i.isCommand with
  | true =>
    cases commandResult_of_exec hcmd h with
    | refused st d => exact .inl ⟨st, d, rfl⟩
    | answered d => exact .inl ⟨.ok, d, rfl⟩
    | ran hstarts => exact .inr ⟨_, _, rfl, by cases hstarts <;> rfl, hstarts.accesses⟩
  | false =>
    cases i with
    | regCtrlHum | regCtrlMeas | regConfig | regStatus | regReset =>
      cases h
      exact .inr ⟨_, _, rfl, rfl, by rw [hidle]; rfl⟩
    | _ => cases hcmd

/-- Settles O44. -/
theorem registerSpaceFrame : Obligations.RegisterSpaceFrame := by
  intro s t i a hidle h ha
  obtain ⟨st, d, rfl⟩ | ⟨ms, u, rfl, hmem, haccesses⟩ := exec_responds_or_runs hidle h
  · rfl
  · rw [run_mem_read, hmem]
    rintro x hx rfl
    exact ha (List.mem_map_of_mem (mem_storedAddrs_of_write (haccesses ▸ hx)))

end Sys2Proof.Machine
end

section
/-! PROOFS. Late answers (spec/10_state.md R42, spec/20_memory.md R58, spec/42_mode_read.md R186; log entry 7): a run that
blocks and is resumed ends as the run whose answer comes at once. -/

namespace Sys2Proof.Machine

/-- The state with other agents. -/
def State.withEnv (s : State) (e : Env) : State := { s with env := e }

theorem request_withEnv (m : Micro) (s : State) (e : Env) : m.request (s.withEnv e) = m.request s :=
  request_congr m rfl

theorem complete_withEnv (m : Micro) (b : Byte) (s : State) (e : Env) :
    m.complete b (s.withEnv e) = (m.complete b s).withEnv e := by
  cases m <;> rfl

/-- A blocked micro-step is resumed where it stands. -/
theorem resume_blocked {m : Micro} {ms : List Micro} (s : State) :
    resume { s with phase := m :: ms } = run (m :: ms) s :=
  run_withPhase (m :: ms) s (m :: ms)

/-- An environment and what it is without one pending answer: `R` relates the two as long as that answer is to come. The
run that blocks on it, resumed, is the run without it. -/
theorem run_late {R : Env → Env → Prop}
    (hbus : ∀ e e', R e e' → (e'.busReply = e.busReply ∧ R e.afterBus e'.afterBus) ∨
      (e.busReply = .pending ∧ e.afterBus = e'))
    (hdelay : ∀ e e', R e e' → (e'.delayReply = e.delayReply ∧ R e.afterDelay e'.afterDelay) ∨
      (e.delayReply = .pending ∧ e.afterDelay = e'))
    {ms : List Micro} {s : State} {e' : Env} (hR : R s.env e') (hblocked : (run ms s).phase ≠ [])
    (hcame : ∀ e, ¬ R (run ms s).env e) : run ms (s.withEnv e') = resume (run ms s) := by
  induction ms generalizing s e' with
  | nil => exact absurd rfl hblocked
  | cons m ms ih =>
    have hreq := request_withEnv m s e'
    cases hr : m.request s with
    | none =>
      rw [run_internal ms hr] at hblocked hcame ⊢
      rw [run_internal ms (hreq.trans hr), complete_withEnv]
      exact ih (by rwa [complete_env]) hblocked hcame
    | some r =>
      rw [hr] at hreq
      cases hrb : r.isBus with
      | true =>
        obtain ⟨hsame, hR'⟩ | ⟨hpending, rfl⟩ := hbus _ _ hR
        · cases hreply : s.env.busReply with
          | ok x =>
            rw [run_done ms hr (ask_bus_ok hrb hreply)] at hblocked hcame ⊢
            rw [run_done ms hreq (ask_bus_ok hrb (hsame.trans hreply))]
            exact (congrArg _ (complete_withEnv _ _ _ _)).trans (ih (by rwa [complete_env]) hblocked hcame)
          | fail f => exact absurd (by rw [run_failed ms hr (ask_bus_fail hrb hreply), transportError_phase]) hblocked
          | pending =>
            rw [run_blocked ms hr (ask_bus_pending hrb hreply)] at hcame
            exact absurd hR' (hcame _)
        · rw [run_blocked ms hr (ask_bus_pending hrb hpending), resume_blocked]
          rfl
      | false =>
        cases r with
        | read | write => cases hrb
        | delay us =>
          obtain ⟨hsame, hR'⟩ | ⟨hpending, rfl⟩ := hdelay _ _ hR
          · cases hreply : s.env.delayReply with
            | elapsed =>
              rw [run_done ms hr (ask_delay_elapsed us hreply)] at hblocked hcame ⊢
              rw [run_done ms hreq (ask_delay_elapsed us (hsame.trans hreply))]
              exact (congrArg _ (complete_withEnv _ _ _ _)).trans (ih (by rwa [complete_env]) hblocked hcame)
            | pending =>
              rw [run_blocked ms hr (ask_delay_pending us hreply)] at hcame
              exact absurd hR' (hcame _)
          · rw [run_blocked ms hr (ask_delay_pending us hpending), resume_blocked]
            rfl

/-- BUS's answers with and without the pending answer before `post`. -/
def LateBus (post : List BusReply) (e e' : Env) : Prop :=
  ∃ pre, e.busIn = pre ++ BusReply.pending :: post ∧ e' = { e with busIn := pre ++ post }

/-- DELAY's answers with and without the pending answer before `post`. -/
def LateDelay (post : List DelayReply) (e e' : Env) : Prop :=
  ∃ pre, e.delayIn = pre ++ DelayReply.pending :: post ∧ e' = { e with delayIn := pre ++ post }

theorem LateBus.bus {post : List BusReply} {e e' : Env} (h : LateBus post e e') :
    (e'.busReply = e.busReply ∧ LateBus post e.afterBus e'.afterBus) ∨ (e.busReply = .pending ∧ e.afterBus = e') := by
  obtain ⟨pre, hpre, rfl⟩ := h
  cases pre with
  | nil => exact .inr (by simp [Env.busReply, Env.afterBus, hpre])
  | cons x pre => exact .inl ⟨by simp [Env.busReply, hpre], pre, by simp [Env.afterBus, hpre]⟩

theorem LateBus.delay {post : List BusReply} {e e' : Env} (h : LateBus post e e') :
    e'.delayReply = e.delayReply ∧ LateBus post e.afterDelay e'.afterDelay := by
  obtain ⟨pre, hpre, rfl⟩ := h
  refine ⟨rfl, pre, by rwa [afterDelay_busIn], ?_⟩
  unfold Env.afterDelay
  cases e.delayIn <;> rfl

theorem LateDelay.delay {post : List DelayReply} {e e' : Env} (h : LateDelay post e e') :
    (e'.delayReply = e.delayReply ∧ LateDelay post e.afterDelay e'.afterDelay) ∨
      (e.delayReply = .pending ∧ e.afterDelay = e') := by
  obtain ⟨pre, hpre, rfl⟩ := h
  cases pre with
  | nil => exact .inr (by simp [Env.delayReply, Env.afterDelay, hpre])
  | cons x pre => exact .inl ⟨by simp [Env.delayReply, hpre], pre, by simp [Env.afterDelay, hpre]⟩

theorem LateDelay.bus {post : List DelayReply} {e e' : Env} (h : LateDelay post e e') :
    e'.busReply = e.busReply ∧ LateDelay post e.afterBus e'.afterBus := by
  obtain ⟨pre, hpre, rfl⟩ := h
  refine ⟨rfl, pre, by rwa [afterBus_delayIn], ?_⟩
  unfold Env.afterBus
  cases e.busIn <;> rfl

/-- No list has itself as a proper tail. -/
theorem ne_append_cons {α : Type} (pre post : List α) (x : α) : post ≠ pre ++ x :: post := by
  intro h
  have := congrArg List.length h
  simp at this
  omega

/-- A command starts in the same way whatever the other agents answer. -/
theorem Starts.withEnv {s u : State} {i : Instr} {ms : List Micro} (h : Starts s i ms u) (e : Env) :
    Starts (s.withEnv e) i ms (u.withEnv e) ∧ u.env = s.env := by
  cases h with
  | init hlife hlegal => exact ⟨.init hlife hlegal, rfl⟩
  | setOsrsH hlife hlegal => exact ⟨.setOsrsH hlife hlegal, rfl⟩
  | setOsrsT hlife hlegal => exact ⟨.setOsrsT hlife hlegal, rfl⟩
  | setOsrsP hlife hlegal => exact ⟨.setOsrsP hlife hlegal, rfl⟩
  | setMode hlife hlegal => exact ⟨.setMode hlife hlegal, rfl⟩
  | setStandby hlife hlegal => exact ⟨.setStandby hlife hlegal, rfl⟩
  | setFilter hlife hlegal => exact ⟨.setFilter hlife hlegal, rfl⟩
  | read hlife => exact ⟨.read hlife, rfl⟩
  | getMeasuring hlife => exact ⟨.getMeasuring hlife, rfl⟩
  | getImUpdate hlife => exact ⟨.getImUpdate hlife, rfl⟩
  | readChipId hlife => exact ⟨.readChipId hlife, rfl⟩
  | softReset hlife => exact ⟨.softReset hlife, rfl⟩

theorem exec_withEnv {s u : State} {i : Instr} {ms : List Micro} (hidle : s.phase = []) (h : Starts s i ms u)
    (e : Env) : exec i (s.withEnv e) = .next (run ms (u.withEnv e)) :=
  exec_of_starts (s := s.withEnv e) hidle (h.withEnv e).1

/-- Settles O47: a command that blocks is a run (`commandResult_of_exec`), and a late answer to one is `run_late`. -/
theorem lateAnswersOnlyDelay : Obligations.LateAnswersOnlyDelay := by
  intro s t i hcmd h hblocked
  have hidle := idle_of_exec_next hcmd h
  cases commandResult_of_exec hcmd h with
  | refused | answered => exact absurd rfl hblocked
  | @ran ms u hstarts =>
    have henv : u.env = s.env := (hstarts.withEnv s.env).2
    refine ⟨fun pre post hpre hpost => ?_, fun pre post hpre hpost => ?_⟩
    · refine (exec_withEnv hidle hstarts { s.env with busIn := pre ++ post }).trans (congrArg _ ?_)
      refine run_late (R := LateBus post) (fun _ _ => LateBus.bus) (fun _ _ hR => .inl hR.delay) ?_ hblocked ?_
      · exact ⟨pre, henv ▸ hpre, henv ▸ rfl⟩
      · rintro e ⟨pre', hpre', -⟩
        exact ne_append_cons pre' post _ (hpost.symm.trans hpre')
    · refine (exec_withEnv hidle hstarts { s.env with delayIn := pre ++ post }).trans (congrArg _ ?_)
      refine run_late (R := LateDelay post) (fun _ _ hR => .inl hR.bus) (fun _ _ => LateDelay.delay) ?_ hblocked ?_
      · exact ⟨pre, henv ▸ hpre, henv ▸ rfl⟩
      · rintro e ⟨pre', hpre', -⟩
        exact ne_append_cons pre' post _ (hpost.symm.trans hpre')

end Sys2Proof.Machine
end

section
/-! PROOFS. The parts of the invariant (spec/41_codec_config.md R157, R158): legal codes, what may be written, and the
shadow. -/

namespace Sys2Proof.Machine

/-! ## Legal codes -/

theorem toNat_setWidth_code (x : BitVec 3) : (x.setWidth 8).toNat = x.toNat := BitVec.toNat_setWidth_of_le (by decide)

theorem modeLegal_setWidth_iff (m : BitVec 2) : modeLegal (m.setWidth 8) = true ↔ m ≠ 2 := by
  revert m
  decide

/-- R29 to R32, without the standby code, which may be any of its field. -/
theorem legal_iff {c : DeviceConfig} :
    c.legal = true ↔ c.osrsH.toNat ≤ 5 ∧ c.osrsT.toNat ≤ 5 ∧ c.osrsP.toNat ≤ 5 ∧ c.mode ≠ 2 ∧ c.filter.toNat ≤ 4 := by
  have hsb : standbyLegal (c.tSb.setWidth 8) = true := by
    rw [standbyLegal_iff, toNat_setWidth_code]
    omega
  simp only [DeviceConfig.legal, Bool.and_eq_true, oversamplingLegal_iff, modeLegal_setWidth_iff, filterLegal_iff,
    toNat_setWidth_code, hsb, and_true, and_assoc]

theorem legal_defaults : DeviceConfig.defaults.legal = true := by decide

theorem toNat_argCode3 {arg : Byte} (h : arg.toNat < 8) : (argCode3 arg).toNat = arg.toNat := by
  rw [← toNat_setWidth_code, setWidth_argCode3 h]

theorem argCode2_ne_two {arg : Byte} (h : modeLegal arg = true) : argCode2 arg ≠ 2 := by
  rw [← modeLegal_setWidth_iff, setWidth_argCode2 (toNat_lt_of_modeLegal h), h]

theorem legal_setHum {c : DeviceConfig} {arg : Byte} (hc : c.legal = true) (harg : oversamplingLegal arg = true) :
    ({ c with osrsH := argCode3 arg } : DeviceConfig).legal = true := by
  rw [oversamplingLegal_iff] at harg
  rw [legal_iff] at hc ⊢
  exact ⟨(toNat_argCode3 (by omega)).trans_le harg, hc.2⟩

theorem legal_setTemp {c : DeviceConfig} {arg : Byte} (hc : c.legal = true) (harg : oversamplingLegal arg = true) :
    ({ c with osrsT := argCode3 arg } : DeviceConfig).legal = true := by
  rw [oversamplingLegal_iff] at harg
  obtain ⟨hh, -, hrest⟩ := legal_iff.mp hc
  exact legal_iff.mpr ⟨hh, (toNat_argCode3 (by omega)).trans_le harg, hrest⟩

theorem legal_setPress {c : DeviceConfig} {arg : Byte} (hc : c.legal = true) (harg : oversamplingLegal arg = true) :
    ({ c with osrsP := argCode3 arg } : DeviceConfig).legal = true := by
  rw [oversamplingLegal_iff] at harg
  obtain ⟨hh, ht, -, hrest⟩ := legal_iff.mp hc
  exact legal_iff.mpr ⟨hh, ht, (toNat_argCode3 (by omega)).trans_le harg, hrest⟩

theorem legal_withMode {c : DeviceConfig} {m : BitVec 2} (hc : c.legal = true) (hm : m ≠ 2) :
    ({ c with mode := m } : DeviceConfig).legal = true := by
  obtain ⟨hh, ht, hp, -, hf⟩ := legal_iff.mp hc
  exact legal_iff.mpr ⟨hh, ht, hp, hm, hf⟩

theorem legal_setStandby {c : DeviceConfig} (x : BitVec 3) (hc : c.legal = true) :
    ({ c with tSb := x } : DeviceConfig).legal = true :=
  legal_iff.mpr ((legal_iff (c := c)).mp hc)

theorem legal_setFilter {c : DeviceConfig} {arg : Byte} (hc : c.legal = true) (harg : filterLegal arg = true) :
    ({ c with filter := argCode3 arg } : DeviceConfig).legal = true := by
  rw [filterLegal_iff] at harg
  obtain ⟨hh, ht, hp, hm, -⟩ := legal_iff.mp hc
  exact legal_iff.mpr ⟨hh, ht, hp, hm, (toNat_argCode3 (by omega)).trans_le harg⟩

/-- What a failed INIT leaves is inside the code sets (R157; log entry 3). -/
theorem legal_freeConfig (n : Nat) : (freeConfig n).legal = true := by
  have hcode : ∀ x k, k ≤ 8 → 0 < k → (BitVec.ofNat 3 (x % k)).toNat ≤ k - 1 := by
    intro x k hk hpos
    have := Nat.mod_lt x hpos
    rw [BitVec.toNat_ofNat]
    omega
  refine legal_iff.mpr ⟨hcode _ 6 (by decide) (by decide), hcode _ 6 (by decide) (by decide),
    hcode _ 6 (by decide) (by decide), ?_, hcode _ 5 (by decide) (by decide)⟩
  unfold freeConfig
  dsimp only
  split <;> decide

/-! ## The bytes that may be written (R157) -/

theorem ctrlMeas_eq (c : DeviceConfig) : c.ctrlMeas = c.osrsT ++ c.osrsP ++ c.mode := encCtrlMeas_setWidth _ _ _

theorem config_eq (c : DeviceConfig) : c.config = c.tSb ++ c.filter ++ (0 : BitVec 2) := encConfig_setWidth _ _

theorem toNat_ctrlHum (c : DeviceConfig) : c.ctrlHum.toNat = c.osrsH.toNat := by
  rw [DeviceConfig.ctrlHum, toNat_encCtrlHum, toNat_setWidth_code]
  omega

theorem allowed_ctrlHum {c : DeviceConfig} (hc : c.legal = true) :
    (Request.write addrCtrlHum c.ctrlHum).allowed = true := by
  obtain ⟨hh, -⟩ := legal_iff.mp hc
  have hbyte : writableByte addrCtrlHum c.ctrlHum = decide (c.ctrlHum.toNat ≤ 5) := rfl
  rw [Request.allowed, hbyte, toNat_ctrlHum, decide_eq_true hh]
  rfl

theorem allowed_ctrlMeas {c : DeviceConfig} (hc : c.legal = true) :
    (Request.write addrCtrlMeas c.ctrlMeas).allowed = true := by
  obtain ⟨-, ht, hp, hm, -⟩ := legal_iff.mp hc
  have hbyte : writableByte addrCtrlMeas c.ctrlMeas = (decide ((c.ctrlMeas.extractLsb' 5 3).toNat ≤ 5) &&
    decide ((c.ctrlMeas.extractLsb' 2 3).toNat ≤ 5) && c.ctrlMeas.extractLsb' 0 2 != 2) := rfl
  rw [Request.allowed, hbyte, ctrlMeas_eq, fields332_high, fields332_middle, fields332_low]
  rw [decide_eq_true ht, decide_eq_true hp, bne_iff_ne.mpr hm]
  rfl

theorem allowed_config {c : DeviceConfig} (hc : c.legal = true) :
    (Request.write addrConfig c.config).allowed = true := by
  obtain ⟨-, -, -, -, hf⟩ := legal_iff.mp hc
  have hbyte : writableByte addrConfig c.config = (decide ((c.config.extractLsb' 2 3).toNat ≤ 4) &&
    c.config.extractLsb' 0 2 == 0) := rfl
  rw [Request.allowed, hbyte, config_eq, fields332_middle, fields332_low]
  rw [decide_eq_true hf]
  rfl

theorem allowed_delay {c : DeviceConfig} (hc : c.legal = true) : (Request.delay c.durationUs).allowed = true := by
  obtain ⟨hh, ht, hp, -⟩ := legal_iff.mp hc
  obtain ⟨-, hrange⟩ := durationFormula c.osrsT.toNat c.osrsP.toNat c.osrsH.toNat
  simp only [Request.allowed, Bool.and_eq_true, decide_eq_true_eq]
  exact hrange ht hp hh

theorem allowed_readCal {i : Nat} (hi : i < 32) : (Request.read (calibAddr i)).allowed = true := by
  revert i
  decide

theorem allowed_readData {j : Nat} (hj : j < 8) : (Request.read (addrData + BitVec.ofNat 8 j)).allowed = true := by
  revert j
  decide

/-! ## What a setter writes: the byte of the new DeviceConfig -/

theorem request_setHum (s : State) {arg : Byte} (h : oversamplingLegal arg = true) :
    (Micro.setHum arg).request s = some (.write addrCtrlHum { s.cfg with osrsH := argCode3 arg }.ctrlHum) := by
  rw [oversamplingLegal_iff] at h
  rw [DeviceConfig.ctrlHum, setWidth_argCode3 (by omega)]
  rfl

theorem request_setTemp (s : State) {arg : Byte} (h : oversamplingLegal arg = true) :
    (Micro.setTemp arg).request s = some (.write addrCtrlMeas { s.cfg with osrsT := argCode3 arg }.ctrlMeas) := by
  rw [oversamplingLegal_iff] at h
  rw [DeviceConfig.ctrlMeas, setWidth_argCode3 (by omega)]
  rfl

theorem request_setPress (s : State) {arg : Byte} (h : oversamplingLegal arg = true) :
    (Micro.setPress arg).request s = some (.write addrCtrlMeas { s.cfg with osrsP := argCode3 arg }.ctrlMeas) := by
  rw [oversamplingLegal_iff] at h
  rw [DeviceConfig.ctrlMeas, setWidth_argCode3 (by omega)]
  rfl

theorem request_setMode (s : State) {arg : Byte} (h : modeLegal arg = true) :
    (Micro.setMode arg).request s = some (.write addrCtrlMeas { s.cfg with mode := argCode2 arg }.ctrlMeas) := by
  rw [DeviceConfig.ctrlMeas, setWidth_argCode2 (toNat_lt_of_modeLegal h)]
  rfl

theorem request_setStandby (s : State) {arg : Byte} (h : standbyLegal arg = true) :
    (Micro.setStandby arg).request s = some (.write addrConfig { s.cfg with tSb := argCode3 arg }.config) := by
  rw [standbyLegal_iff] at h
  rw [DeviceConfig.config, setWidth_argCode3 (by omega)]
  rfl

theorem request_setFilter (s : State) {arg : Byte} (h : filterLegal arg = true) :
    (Micro.setFilter arg).request s = some (.write addrConfig { s.cfg with filter := argCode3 arg }.config) := by
  rw [filterLegal_iff] at h
  rw [DeviceConfig.config, setWidth_argCode3 (by omega)]
  rfl

/-! ## The shadow (R158) -/

/-- Each control register was last written with what `c` says, but for the auto-revert, if `reverts` allows one:
`State.shadowOk` as facts, and `State.shadowExact` beside it. -/
structure Shadow (reverts : Prop) (m : Memory) (c : DeviceConfig) : Prop where
  hum : m.read addrCtrlHum.toNat = some c.ctrlHum
  config : m.read addrConfig.toNat = some c.config
  meas : m.read addrCtrlMeas.toNat = some c.ctrlMeas ∨
    (reverts ∧ c.mode = modeSleep ∧ m.read addrCtrlMeas.toNat = some { c with mode := modeForced }.ctrlMeas)

theorem shadowOk_iff {s : State} : s.shadowOk = true ↔ Shadow True s.mem s.cfg := by
  simp only [State.shadowOk, Bool.and_eq_true, Bool.or_eq_true, beq_iff_eq]
  constructor
  · rintro ⟨⟨hhum, hconfig⟩, hmeas⟩
    exact ⟨hhum, hconfig, by simpa using hmeas⟩
  · rintro ⟨hhum, hconfig, hmeas⟩
    exact ⟨⟨hhum, hconfig⟩, by simpa using hmeas⟩

/-- With an exact ctrl-meas register there is no auto-revert to allow for. -/
theorem Shadow.of_exact {reverts : Prop} {s : State} (h : Shadow reverts s.mem s.cfg) (hexact : s.shadowExact = true) :
    Shadow False s.mem s.cfg :=
  ⟨h.hum, h.config, .inl (beq_iff_eq.mp hexact)⟩

theorem Shadow.exact {s : State} (h : Shadow False s.mem s.cfg) : s.shadowExact = true := by
  obtain hexact | ⟨⟨⟩, -⟩ := h.meas
  exact beq_iff_eq.mpr hexact

theorem Shadow.writeHum {reverts : Prop} {m : Memory} {c : DeviceConfig} (h : Shadow reverts m c) (x : BitVec 3) :
    Shadow reverts (m.write addrCtrlHum.toNat { c with osrsH := x }.ctrlHum) { c with osrsH := x } where
  hum := Memory.read_write_same _ _ _
  config := (Memory.read_write_other _ _ (by decide)).trans h.config
  meas := by
    rw [Memory.read_write_other _ _ (by decide)]
    exact h.meas

/-- Writing ctrl-meas leaves no trace of an auto-revert. -/
theorem Shadow.writeMeas {reverts : Prop} {m : Memory} {c c' : DeviceConfig} (h : Shadow reverts m c)
    (hhum : c'.ctrlHum = c.ctrlHum) (hconfig : c'.config = c.config) :
    Shadow reverts (m.write addrCtrlMeas.toNat c'.ctrlMeas) c' where
  hum := by rw [Memory.read_write_other _ _ (by decide), h.hum, hhum]
  config := by rw [Memory.read_write_other _ _ (by decide), h.config, hconfig]
  meas := .inl (Memory.read_write_same _ _ _)

theorem Shadow.writeConfig {reverts : Prop} {m : Memory} {c : DeviceConfig} (h : Shadow reverts m c) (sb f : BitVec 3) :
    Shadow reverts (m.write addrConfig.toNat { c with tSb := sb, filter := f }.config)
      { c with tSb := sb, filter := f } where
  hum := (Memory.read_write_other _ _ (by decide)).trans h.hum
  config := Memory.read_write_same _ _ _
  meas := by
    rw [Memory.read_write_other _ _ (by decide)]
    exact h.meas

theorem Shadow.writeReset {reverts : Prop} {m : Memory} {c : DeviceConfig} (h : Shadow reverts m c) (b : Byte) :
    Shadow reverts (m.write addrReset.toNat b) c where
  hum := (Memory.read_write_other _ _ (by decide)).trans h.hum
  config := (Memory.read_write_other _ _ (by decide)).trans h.config
  meas := by
    rw [Memory.read_write_other _ _ (by decide)]
    exact h.meas

/-- R179: the auto-revert itself; ctrl-meas still says forced. -/
theorem Shadow.revert {reverts : Prop} {m : Memory} {c : DeviceConfig} (h : Shadow reverts m c) (hreverts : reverts)
    (hmode : c.mode = modeForced) : Shadow reverts m { c with mode := modeSleep } where
  hum := h.hum
  config := h.config
  meas := by
    obtain hexact | ⟨-, hsleep, -⟩ := h.meas
    · refine .inr ⟨hreverts, rfl, hexact.trans ?_⟩
      rw [← hmode]
    · cases hsleep.symm.trans hmode

end Sys2Proof.Machine
end

section
/-! PROOFS. The invariant (spec/10_state.md R22 to R26, spec/41_codec_config.md R157, R158): what holds at every point of a
command, also between two micro-steps of one step. -/

namespace Sys2Proof.Machine

/-! ## What can remain of a command -/

/-- In READY, with this mode and these data bytes: the remainders that `State.readyPhaseOk` allows, and those before a
micro-step without a request, at which no step can stop. -/
inductive ReadyRest (mode : BitVec 2) (data : List Byte) : List Micro → Prop where
  | idle : ReadyRest mode data []
  | respond : ReadyRest mode data [.respondOk]
  | probe (f : StatusFlag) : ReadyRest mode data [.probe f]
  | chipId : ReadyRest mode data [.chipId]
  | wait (hmode : mode = modeForced) (hdata : data = []) :
      ReadyRest mode data (.waitSample :: (dataReads ++ [Micro.deliver true]))
  | read (hlen : data.length < 8) :
      ReadyRest mode data (.readData data.length ::
        (dataReads.drop (data.length + 1) ++ [Micro.deliver (mode == modeForced)]))
  | deliver : ReadyRest mode data [.deliver (mode == modeForced)]
  | setHum {arg : Byte} (hlegal : oversamplingLegal arg = true) :
      ReadyRest mode data [.setHum arg, .pushMeas, .respondOk]
  | pushMeas : ReadyRest mode data [.pushMeas, .respondOk]
  | setTemp {arg : Byte} (hlegal : oversamplingLegal arg = true) : ReadyRest mode data [.setTemp arg, .respondOk]
  | setPress {arg : Byte} (hlegal : oversamplingLegal arg = true) : ReadyRest mode data [.setPress arg, .respondOk]
  | setMode {arg : Byte} (hlegal : modeLegal arg = true) : ReadyRest mode data [.setMode arg, .respondOk]
  | setStandby {arg : Byte} (hlegal : standbyLegal arg = true) : ReadyRest mode data [.setStandby arg, .respondOk]
  | setFilter {arg : Byte} (hlegal : filterLegal arg = true) : ReadyRest mode data [.setFilter arg, .respondOk]
  | softReset : ReadyRest mode data [.softReset, .respondOk]

/-- In UNCONSTRUCTED: the rest of an INIT, and what INIT has done before it. -/
inductive InitRest (reverts : Prop) (rawCal : List Byte) (cal : Option CalibrationData) (cfg : DeviceConfig)
    (mem : Memory) : List Micro → Prop where
  | idle : InitRest reverts rawCal cal cfg mem []
  | read (hlen : rawCal.length < 32) :
      InitRest reverts rawCal cal cfg mem (.readCal rawCal.length :: (calibReads.drop (rawCal.length + 1) ++ initTail))
  | parse : InitRest reverts rawCal cal cfg mem [.parse, .pushHum, .pushMeas, .pushConfig, .becomeReady, .respondOk]
  | pushHum (hcfg : cfg = DeviceConfig.defaults) (hcal : cal.isSome = true) :
      InitRest reverts rawCal cal cfg mem [.pushHum, .pushMeas, .pushConfig, .becomeReady, .respondOk]
  | pushMeas (hcfg : cfg = DeviceConfig.defaults) (hcal : cal.isSome = true)
      (hhum : mem.read addrCtrlHum.toNat = some cfg.ctrlHum) :
      InitRest reverts rawCal cal cfg mem [.pushMeas, .pushConfig, .becomeReady, .respondOk]
  | pushConfig (hcfg : cfg = DeviceConfig.defaults) (hcal : cal.isSome = true)
      (hhum : mem.read addrCtrlHum.toNat = some cfg.ctrlHum)
      (hmeas : mem.read addrCtrlMeas.toNat = some cfg.ctrlMeas) :
      InitRest reverts rawCal cal cfg mem [.pushConfig, .becomeReady, .respondOk]
  | becomeReady (hcal : cal.isSome = true) (hshadow : Shadow reverts mem cfg) :
      InitRest reverts rawCal cal cfg mem [.becomeReady, .respondOk]

/-- The lifecycle's own part, with `ms` to be done. -/
inductive RestOk (reverts : Prop) (ms : List Micro) (s : State) : Prop where
  | ready (hlife : s.life = .ready) (hcal : s.cal.isSome = true) (hshadow : Shadow reverts s.mem s.cfg)
      (hrest : ReadyRest s.cfg.mode s.data ms)
  | init (hlife : s.life = .unconstructed) (hrest : InitRest reverts s.rawCal s.cal s.cfg s.mem ms)

/-- The invariant in mid-command: `State.inv` with `ms` in place of `phase`. -/
structure Underway (reverts : Prop) (ms : List Micro) (s : State) : Prop where
  mem : s.mem.wf = true
  cfg : s.cfg.legal = true
  cal : s.cal.all CalibrationData.inRange = true
  status : s.resp.status.toNat ≤ 5
  rest : RestOk reverts ms s

theorem dataReads_drop {n : Nat} (hn : n < 8) : dataReads.drop n = .readData n :: dataReads.drop (n + 1) := by
  rw [List.drop_eq_getElem_cons (by simpa [dataReads] using hn)]
  simp [dataReads]

theorem calibReads_drop {n : Nat} (hn : n < 32) : calibReads.drop n = .readCal n :: calibReads.drop (n + 1) := by
  rw [List.drop_eq_getElem_cons (by simpa [calibReads] using hn)]
  simp [calibReads]

/-- What remains of a READ after its first data bytes. -/
theorem ReadyRest.reads {mode : BitVec 2} {data : List Byte} (hlen : data.length ≤ 8) :
    ReadyRest mode data (dataReads.drop data.length ++ [Micro.deliver (mode == modeForced)]) := by
  obtain hlt | heq := hlen.lt_or_eq
  · rw [dataReads_drop hlt]
    exact .read hlt
  · rw [heq]
    exact .deliver

theorem InitRest.reads {reverts : Prop} {rawCal : List Byte} {cal : Option CalibrationData} {cfg : DeviceConfig}
    {mem : Memory} (hlen : rawCal.length ≤ 32) :
    InitRest reverts rawCal cal cfg mem (calibReads.drop rawCal.length ++ initTail) := by
  obtain hlt | heq := hlen.lt_or_eq
  · rw [calibReads_drop hlt]
    exact .read hlt
  · rw [heq]
    exact .parse

/-! ## Between the invariant and its parts -/

theorem readyRest_of_readPhaseOk {mode : BitVec 2} {data : List Byte} {ms : List Micro}
    (h : readPhaseOk mode data ms = true) : ReadyRest mode data ms := by
  unfold readPhaseOk at h
  split at h
  · exact .probe _
  · exact .chipId
  · simp only [Bool.and_eq_true, beq_iff_eq, List.isEmpty_iff] at h
    obtain ⟨⟨hmode, hdata⟩, rfl⟩ := h
    exact .wait hmode hdata
  · simp only [Bool.and_eq_true, beq_iff_eq, decide_eq_true_eq] at h
    obtain ⟨⟨hlen, rfl⟩, rfl⟩ := h
    exact .read hlen
  · cases h

theorem readyRest_of_setPhaseOk {mode : BitVec 2} {data : List Byte} {ms : List Micro} (h : setPhaseOk ms = true) :
    ReadyRest mode data ms := by
  unfold setPhaseOk at h
  split at h
  · exact .setHum h
  · exact .setTemp h
  · exact .setPress h
  · exact .setMode h
  · exact .setStandby h
  · exact .setFilter h
  · exact .pushMeas
  · exact .softReset
  · cases h

theorem readyRest_of_readyPhaseOk {s : State} (h : s.readyPhaseOk = true) : ReadyRest s.cfg.mode s.data s.phase := by
  simp only [State.readyPhaseOk, Bool.or_eq_true, List.isEmpty_iff] at h
  obtain (h | h) | h := h
  · exact h.symm ▸ .idle
  · exact readyRest_of_readPhaseOk h
  · exact readyRest_of_setPhaseOk h

theorem initRest_of_initPhaseOk (reverts : Prop) {s : State} (h : s.initPhaseOk = true) :
    InitRest reverts s.rawCal s.cal s.cfg s.mem s.phase := by
  unfold State.initPhaseOk at h
  split at h
  · next hp => exact hp.symm ▸ .idle
  · simp only [Bool.and_eq_true, beq_iff_eq, decide_eq_true_eq] at h
    exact h.2.symm ▸ .reads h.1.le
  · next hp =>
    simp only [Bool.and_eq_true, beq_iff_eq] at h
    obtain ⟨⟨rfl, hcfg⟩, hcal⟩ := h
    exact hp.symm ▸ .pushHum hcfg hcal
  · next hp =>
    simp only [Bool.and_eq_true, beq_iff_eq] at h
    obtain ⟨⟨⟨rfl, hcfg⟩, hcal⟩, hhum⟩ := h
    exact hp.symm ▸ .pushMeas hcfg hcal hhum
  · next hp =>
    simp only [Bool.and_eq_true, beq_iff_eq] at h
    obtain ⟨⟨⟨⟨rfl, hcfg⟩, hcal⟩, hhum⟩, hmeas⟩ := h
    exact hp.symm ▸ .pushConfig hcfg hcal hhum hmeas
  · cases h

/-- A state that meets the invariant is in mid-command of what its phase says. -/
theorem underway_of_inv {s : State} (h : s.inv = true) : Underway True s.phase s := by
  simp only [State.inv, Bool.and_eq_true, decide_eq_true_eq] at h
  obtain ⟨⟨⟨⟨hmem, hcfg⟩, hcal⟩, hstatus⟩, hlife⟩ := h
  refine ⟨hmem, hcfg, hcal, hstatus, ?_⟩
  cases hl : s.life with
  | ready =>
    simp only [State.lifeOk, hl, Bool.and_eq_true] at hlife
    obtain ⟨⟨hsome, hshadow⟩, hphase⟩ := hlife
    exact .ready hl hsome (shadowOk_iff.mp hshadow) (readyRest_of_readyPhaseOk hphase)
  | unconstructed =>
    simp only [State.lifeOk, hl] at hlife
    exact .init hl (initRest_of_initPhaseOk True hlife)

/-- The remainders at which a step can stop are those that the invariant allows. -/
theorem readyPhaseOk_of_readyRest {s : State} {m : Micro} {ms : List Micro} (h : ReadyRest s.cfg.mode s.data (m :: ms))
    (hreq : m.request s ≠ none) (hp : s.phase = m :: ms) : s.readyPhaseOk = true := by
  simp only [State.readyPhaseOk, Bool.or_eq_true, hp]
  cases h with
  | respond | deliver => exact absurd rfl hreq
  | probe | chipId => exact .inl (.inr rfl)
  | wait hmode hdata => exact .inl (.inr (by simp [readPhaseOk, hmode, hdata]))
  | read hlen => exact .inl (.inr (by simp [readPhaseOk, hlen]))
  | setHum hlegal | setTemp hlegal | setPress hlegal | setMode hlegal | setStandby hlegal | setFilter hlegal =>
    exact .inr hlegal
  | pushMeas | softReset => exact .inr rfl

theorem initPhaseOk_of_initRest {reverts : Prop} {s : State} {m : Micro} {ms : List Micro}
    (h : InitRest reverts s.rawCal s.cal s.cfg s.mem (m :: ms)) (hreq : m.request s ≠ none) (hp : s.phase = m :: ms) :
    s.initPhaseOk = true := by
  unfold State.initPhaseOk
  cases h with
  | parse | becomeReady => exact absurd rfl hreq
  | read hlen => simp [hp, hlen, calibReads_drop]
  | pushHum hcfg hcal => simp [hp, hcfg, hcal, initTail]
  | pushMeas hcfg hcal hhum => simp [hp, ← hcfg, hcal, hhum, initTail]
  | pushConfig hcfg hcal hhum hmeas => simp [hp, ← hcfg, hcal, hhum, hmeas, initTail]

/-- The parts that the invariant shares with `Underway`. -/
theorem Underway.inv_of_lifeOk {reverts : Prop} {ms : List Micro} {s : State} (h : Underway reverts ms s)
    (hlife : s.lifeOk = true) : s.inv = true := by
  simp [State.inv, h.mem, h.cfg, h.cal, h.status, hlife]

/-- The block is idle, or waits for an answer: it meets the invariant. -/
theorem Underway.inv {s : State} (h : Underway True s.phase s)
    (hstop : ∀ m ms, s.phase = m :: ms → m.request s ≠ none) : s.inv = true := by
  apply h.inv_of_lifeOk
  cases h.rest with
  | ready hlife hcal hshadow hrest =>
    have hphase : s.readyPhaseOk = true := by
      cases hp : s.phase with
      | nil => simp [State.readyPhaseOk, hp]
      | cons m ms => exact readyPhaseOk_of_readyRest (hp ▸ hrest) (hstop m ms hp) hp
    simp [State.lifeOk, hlife, hcal, shadowOk_iff.mpr hshadow, hphase]
  | init hlife hrest =>
    have hphase : s.initPhaseOk = true := by
      cases hp : s.phase with
      | nil => simp [State.initPhaseOk, hp]
      | cons m ms => exact initPhaseOk_of_initRest (hp ▸ hrest) (hstop m ms hp) hp
    simp [State.lifeOk, hlife, hphase]

/-- What the invariant says does not depend on the trace, the other agents and the device address. -/
theorem Underway.congr {reverts : Prop} {ms : List Micro} {s t : State} (h : Underway reverts ms s)
    (hlife : t.life = s.life) (hcal : t.cal = s.cal) (hraw : t.rawCal = s.rawCal) (hcfg : t.cfg = s.cfg)
    (hdata : t.data = s.data) (hresp : t.resp = s.resp) (hmem : t.mem = s.mem) : Underway reverts ms t := by
  obtain ⟨m, c, ca, st, rest⟩ := h
  refine ⟨hmem ▸ m, hcfg ▸ c, hcal ▸ ca, hresp ▸ st, ?_⟩
  cases rest with
  | ready hl hs hsh hr => exact .ready (hlife.trans hl) (hcal ▸ hs) (by rwa [hmem, hcfg]) (by rwa [hcfg, hdata])
  | init hl hr => exact .init (hlife.trans hl) (by rwa [hraw, hcal, hcfg, hmem])

/-! ## One micro-step -/

theorem status_code_le (st : Status) : st.code.toNat ≤ 5 := by
  cases st <;> decide

/-- The end of a READ: the auto-revert, if it began in Forced (R179). -/
theorem Underway.deliver {reverts : Prop} {s : State} (h : Underway reverts [.deliver (s.cfg.mode == modeForced)] s)
    (hlife : s.life = .ready) (hsome : s.cal.isSome = true) (hshadow : Shadow reverts s.mem s.cfg)
    (hreverts : s.cfg.mode = modeForced → reverts) :
    Underway reverts [] ((Micro.deliver (s.cfg.mode == modeForced)).complete 0 s) := by
  by_cases hmode : s.cfg.mode = modeForced
  · rw [beq_iff_eq.mpr hmode]
    exact ⟨h.mem, legal_withMode h.cfg (by decide), h.cal, status_code_le .ok,
      .ready hlife hsome (hshadow.revert (hreverts hmode) hmode) .idle⟩
  · rw [beq_eq_false_iff_ne.mpr hmode]
    exact ⟨h.mem, h.cfg, h.cal, status_code_le .ok, .ready hlife hsome hshadow .idle⟩

theorem all_inRange_parse (s : State) : (Micro.parse.complete 0 s).cal.all CalibrationData.inRange = true := by
  have hcal : (Micro.parse.complete 0 s).cal = some (parseCalibration s.rawCal) := rfl
  rw [hcal, Option.all_some, inRange_parseCalibration]

/-- The parse (R111, R33). -/
theorem Underway.parse {reverts : Prop} {ms : List Micro} {s : State} (h : Underway reverts ms s)
    (hlife : s.life = .unconstructed) :
    Underway reverts [.pushHum, .pushMeas, .pushConfig, .becomeReady, .respondOk] (Micro.parse.complete 0 s) where
  mem := h.mem
  cfg := legal_defaults
  cal := all_inRange_parse s
  status := h.status
  rest := .init hlife (.pushHum rfl rfl)

theorem Underway.internal {reverts : Prop} {m : Micro} {ms : List Micro} {s : State} (h : Underway reverts (m :: ms) s)
    (hreq : m.request s = none) (hreverts : m = .deliver true → reverts) : Underway reverts ms (m.complete 0 s) := by
  cases h.rest with
  | ready hlife hsome hshadow hrest =>
    cases hrest with
    | respond => exact ⟨h.mem, h.cfg, h.cal, status_code_le .ok, .ready hlife hsome hshadow .idle⟩
    | deliver => exact h.deliver hlife hsome hshadow fun hmode => hreverts (by rw [beq_iff_eq.mpr hmode])
    | _ => cases hreq
  | init hlife hrest =>
    cases hrest with
    | parse => exact h.parse hlife
    | becomeReady hsome hshadow => exact ⟨h.mem, h.cfg, h.cal, h.status, .ready rfl hsome hshadow .respond⟩
    | _ => cases hreq

theorem Underway.answered {reverts : Prop} {m : Micro} {ms : List Micro} {s : State} {r : Request}
    (h : Underway reverts (m :: ms) s) (hreq : m.request s = some r) (b : Byte) (e : Env) :
    Underway reverts ms (m.complete b (s.answered r b e)) := by
  obtain ⟨hmem, hcfg, hcal, hstatus, hrest⟩ := h
  have hwrite : ∀ a x, (s.mem.write (BitVec.toNat a) x).wf = true := fun a x => Memory.wf_write s.mem a x hmem
  cases hrest with
  | ready hlife hsome hshadow hrest =>
    cases hrest with
    | respond | deliver => cases hreq
    | probe | chipId =>
      cases hreq
      exact ⟨hmem, hcfg, hcal, status_code_le .ok, .ready hlife hsome hshadow .idle⟩
    | wait hmode hdata =>
      cases hreq
      refine ⟨hmem, hcfg, hcal, hstatus, .ready hlife hsome hshadow ?_⟩
      change ReadyRest s.cfg.mode s.data _
      rw [hmode, hdata]
      exact .reads (mode := modeForced) (data := []) (Nat.zero_le 8)
    | read hlen =>
      cases hreq
      have hreads := ReadyRest.reads (mode := s.cfg.mode) (data := s.data ++ [b]) (by simpa using hlen)
      rw [List.length_append] at hreads
      exact ⟨hmem, hcfg, hcal, hstatus, .ready hlife hsome hshadow hreads⟩
    | setHum hlegal =>
      cases (request_setHum s hlegal).symm.trans hreq
      exact ⟨hwrite _ _, legal_setHum hcfg hlegal, hcal, hstatus, .ready hlife hsome (hshadow.writeHum _) .pushMeas⟩
    | pushMeas =>
      cases hreq
      exact ⟨hwrite _ _, hcfg, hcal, hstatus, .ready hlife hsome (hshadow.writeMeas rfl rfl) .respond⟩
    | setTemp hlegal =>
      cases (request_setTemp s hlegal).symm.trans hreq
      exact ⟨hwrite _ _, legal_setTemp hcfg hlegal, hcal, hstatus,
        .ready hlife hsome (hshadow.writeMeas rfl rfl) .respond⟩
    | setPress hlegal =>
      cases (request_setPress s hlegal).symm.trans hreq
      exact ⟨hwrite _ _, legal_setPress hcfg hlegal, hcal, hstatus,
        .ready hlife hsome (hshadow.writeMeas rfl rfl) .respond⟩
    | setMode hlegal =>
      cases (request_setMode s hlegal).symm.trans hreq
      exact ⟨hwrite _ _, legal_withMode hcfg (argCode2_ne_two hlegal), hcal, hstatus,
        .ready hlife hsome (hshadow.writeMeas rfl rfl) .respond⟩
    | setStandby hlegal =>
      cases (request_setStandby s hlegal).symm.trans hreq
      exact ⟨hwrite _ _, legal_setStandby _ hcfg, hcal, hstatus,
        .ready hlife hsome (hshadow.writeConfig _ _) .respond⟩
    | setFilter hlegal =>
      cases (request_setFilter s hlegal).symm.trans hreq
      exact ⟨hwrite _ _, legal_setFilter hcfg hlegal, hcal, hstatus,
        .ready hlife hsome (hshadow.writeConfig _ _) .respond⟩
    | softReset =>
      cases hreq
      exact ⟨hwrite _ _, hcfg, hcal, hstatus, .ready hlife hsome (hshadow.writeReset _) .respond⟩
  | init hlife hrest =>
    cases hrest with
    | parse | becomeReady => cases hreq
    | read hlen =>
      cases hreq
      have hreads := InitRest.reads (reverts := reverts) (rawCal := s.rawCal ++ [b]) (cal := s.cal) (cfg := s.cfg)
        (mem := s.mem) (by simpa using hlen)
      rw [List.length_append] at hreads
      exact ⟨hmem, hcfg, hcal, hstatus, .init hlife hreads⟩
    | pushHum hdefaults hsome =>
      cases hreq
      exact ⟨hwrite _ _, hcfg, hcal, hstatus, .init hlife (.pushMeas hdefaults hsome (Memory.read_write_same _ _ _))⟩
    | pushMeas hdefaults hsome hhum =>
      cases hreq
      refine ⟨hwrite _ _, hcfg, hcal, hstatus,
        .init hlife (.pushConfig hdefaults hsome ?_ (Memory.read_write_same _ _ _))⟩
      exact (Memory.read_write_other _ _ (by decide)).trans hhum
    | pushConfig hdefaults hsome hhum hmeas =>
      cases hreq
      refine ⟨hwrite _ _, hcfg, hcal, hstatus,
        .init hlife (.becomeReady hsome ⟨?_, Memory.read_write_same _ _ _, .inl ?_⟩)⟩
      · exact (Memory.read_write_other _ _ (by decide)).trans hhum
      · exact (Memory.read_write_other _ _ (by decide)).trans hmeas

end Sys2Proof.Machine
end

section
/-! PROOFS. The invariant over a step, and what follows of it about requests (spec/20_memory.md R52, R68). -/

namespace Sys2Proof.Machine

/-- A failed transaction ends the command with the invariant (R119, R228). -/
theorem Underway.inv_transportError {ms : List Micro} {s : State} (h : Underway True ms s) (f : Token) :
    (transportError f s).inv = true := by
  have hidle := transportError_phase f s
  refine Underway.inv (hidle.symm ▸ ?_) (by simp)
  cases h.rest with
  | ready hlife hsome hshadow hrest =>
    rw [transportError_ready f hlife]
    exact ⟨h.mem, h.cfg, h.cal, status_code_le .transportError, .ready hlife hsome hshadow .idle⟩
  | init hlife hrest =>
    rw [transportError_unconstructed f hlife]
    exact ⟨h.mem, legal_freeConfig _, rfl, status_code_le .transportError, .init hlife .idle⟩

theorem run_inv {ms : List Micro} {s : State} (h : Underway True ms s) : (run ms s).inv = true := by
  refine run_induction (I := Underway True) (Q := fun t => t.inv = true) ?done ?internal ?answered ?failed ?blocked
    ms s h
  case done => exact fun u h => Underway.inv (h.congr rfl rfl rfl rfl rfl rfl rfl) nofun
  case internal => exact fun m ms u h hr => h.internal hr fun _ => trivial
  case answered => exact fun m ms u r b e h hr _ => h.answered hr b e
  case failed =>
    rintro m ms u r f e h - -
    exact Underway.inv_transportError (s := u.failed r f e) (h.congr rfl rfl rfl rfl rfl rfl rfl) f
  case blocked =>
    rintro m ms u r e h hr -
    refine Underway.inv (h.congr rfl rfl rfl rfl rfl rfl rfl) ?_
    rintro m' ms' ⟨⟩ hnone
    cases hr.symm.trans ((request_congr m (s := u) rfl).symm.trans hnone)

/-! ## One step -/

/-- A command starts with the invariant, in mid-command of all its micro-steps. -/
theorem Starts.underway {reverts : Prop} {s u : State} {i : Instr} {ms : List Micro} (hs : Underway reverts s.phase s)
    (h : Starts s i ms u) : Underway reverts ms u := by
  obtain ⟨hmem, hcfg, hcal, hstatus, hrest⟩ := hs
  refine ⟨by cases h <;> exact hmem, by cases h <;> exact hcfg, by cases h <;> exact hcal,
    by cases h <;> exact hstatus, ?_⟩
  cases hrest with
  | init hlife =>
    cases h with
    | init => exact .init hlife (.reads (rawCal := []) (Nat.zero_le 32))
    | setOsrsH hl | setOsrsT hl | setOsrsP hl | setMode hl | setStandby hl | setFilter hl => cases hl.symm.trans hlife
    | read hl | getMeasuring hl | getImUpdate hl | readChipId hl | softReset hl => cases hl.symm.trans hlife
  | ready hlife hsome hshadow =>
    cases h with
    | init hl => cases hl.symm.trans hlife
    | setOsrsH _ hlegal => exact .ready hlife hsome hshadow (.setHum hlegal)
    | setOsrsT _ hlegal => exact .ready hlife hsome hshadow (.setTemp hlegal)
    | setOsrsP _ hlegal => exact .ready hlife hsome hshadow (.setPress hlegal)
    | setMode _ hlegal => exact .ready hlife hsome hshadow (.setMode hlegal)
    | setStandby _ hlegal => exact .ready hlife hsome hshadow (.setStandby hlegal)
    | setFilter _ hlegal => exact .ready hlife hsome hshadow (.setFilter hlegal)
    | read =>
      refine .ready hlife hsome hshadow ?_
      by_cases hmode : s.cfg.mode = modeForced
      · rw [hmode]
        exact .wait rfl rfl
      · have hreads := ReadyRest.reads (mode := s.cfg.mode) (data := []) (Nat.zero_le 8)
        rw [beq_eq_false_iff_ne.mpr hmode] at hreads ⊢
        exact hreads
    | getMeasuring | getImUpdate => exact .ready hlife hsome hshadow (.probe _)
    | readChipId => exact .ready hlife hsome hshadow .chipId
    | softReset => exact .ready hlife hsome hshadow .softReset

theorem inv_respond {s : State} (hinv : s.inv = true) (hidle : s.phase = []) (st : Status) (d : BitVec 64) :
    (respond st d s).inv = true := by
  obtain ⟨hmem, hcfg, hcal, -, hrest⟩ := underway_of_inv hinv
  refine Underway.inv ⟨hmem, hcfg, hcal, status_code_le st, ?_⟩ nofun
  rw [hidle] at hrest
  cases hrest with
  | ready hlife hsome hshadow hrest => exact .ready hlife hsome hshadow hrest
  | init hlife hrest => exact .init hlife hrest

theorem inv_hardReset {s : State} (hmem : s.mem.wf = true) : (hardReset s).inv = true :=
  Underway.inv ⟨hmem, legal_defaults, rfl, Nat.zero_le 5, .init rfl .idle⟩ nofun

theorem exec_inv {s t : State} {i : Instr} (hcmd : i.isCommand = true) (hinv : s.inv = true) (h : exec i s = .next t) :
    t.inv = true := by
  cases commandResult_of_exec hcmd h with
  | refused st d | answered d => exact inv_respond hinv (idle_of_exec_next hcmd h) _ _
  | ran hstarts => exact run_inv (hstarts.underway (underway_of_inv hinv))

/-- Settles O48. -/
theorem resetMeetsTheInvariant : Obligations.ResetMeetsTheInvariant :=
  inv_hardReset (s := State.reset) rfl

/-- Settles O49: every micro-step keeps `Underway`, which is the invariant wherever a step can stop. -/
theorem stepKeepsTheInvariant : Obligations.StepKeepsTheInvariant := by
  intro s t hinv h
  have htake : s.takeHost.inv = true := hinv
  obtain ⟨rest, -, rfl⟩ | ⟨-, rfl⟩ | ⟨-, -, rfl⟩ | ⟨-, -, rfl⟩ | ⟨w, hw, ⟨i, hi, hexec⟩ | ⟨e, -, rfl⟩⟩ :=
    step_next_cases h
  · exact inv_hardReset (underway_of_inv hinv).mem
  · exact run_inv (underway_of_inv hinv)
  · exact hinv
  · exact htake
  · exact exec_inv (isCommand_of_decode hi) htake hexec
  · exact inv_respond htake (State.issued_phase (s := s) hw) _ _

/-! ## Requests (R52, R68, R157) -/

/-- The request of a micro-step to be done is one that the block may make. -/
theorem Underway.allowed {m : Micro} {ms : List Micro} {s : State} {r : Request} (h : Underway True (m :: ms) s)
    (hreq : m.request s = some r) : r.allowed = true := by
  have hcfg := h.cfg
  cases h.rest with
  | ready hlife hsome hshadow hrest =>
    cases hrest with
    | respond | deliver => cases hreq
    | probe | chipId | softReset =>
      cases hreq
      decide
    | wait =>
      cases hreq
      exact allowed_delay hcfg
    | read hlen =>
      cases hreq
      exact allowed_readData hlen
    | setHum hlegal =>
      cases (request_setHum s hlegal).symm.trans hreq
      exact allowed_ctrlHum (legal_setHum hcfg hlegal)
    | pushMeas =>
      cases hreq
      exact allowed_ctrlMeas hcfg
    | setTemp hlegal =>
      cases (request_setTemp s hlegal).symm.trans hreq
      exact allowed_ctrlMeas (legal_setTemp hcfg hlegal)
    | setPress hlegal =>
      cases (request_setPress s hlegal).symm.trans hreq
      exact allowed_ctrlMeas (legal_setPress hcfg hlegal)
    | setMode hlegal =>
      cases (request_setMode s hlegal).symm.trans hreq
      exact allowed_ctrlMeas (legal_withMode hcfg (argCode2_ne_two hlegal))
    | setStandby hlegal =>
      cases (request_setStandby s hlegal).symm.trans hreq
      exact allowed_config (legal_setStandby _ hcfg)
    | setFilter hlegal =>
      cases (request_setFilter s hlegal).symm.trans hreq
      exact allowed_config (legal_setFilter hcfg hlegal)
  | init hlife hrest =>
    cases hrest with
    | parse | becomeReady => cases hreq
    | read hlen =>
      cases hreq
      exact allowed_readCal hlen
    | pushHum =>
      cases hreq
      exact allowed_ctrlHum hcfg
    | pushMeas =>
      cases hreq
      exact allowed_ctrlMeas hcfg
    | pushConfig =>
      cases hreq
      exact allowed_config hcfg

theorem traceOk_append {s : State} {ev : Event} {t : State} (h : s.traceOk = true) (hev : ev.request.allowed = true)
    (ht : t.trace = s.trace ++ [ev]) : t.traceOk = true := by
  rw [State.traceOk] at h ⊢
  rw [ht, List.all_append, h, List.all_cons, hev]
  rfl

theorem traceOk_congr {s t : State} (h : s.traceOk = true) (ht : t.trace = s.trace) : t.traceOk = true := by
  rwa [State.traceOk, ht]

theorem run_traceOk {ms : List Micro} {s : State} (h : Underway True ms s) (htrace : s.traceOk = true) :
    (run ms s).traceOk = true := by
  refine run_induction (I := fun ms u => Underway True ms u ∧ u.traceOk = true) (Q := fun t => t.traceOk = true)
    ?done ?internal ?answered ?failed ?blocked ms s ⟨h, htrace⟩
  case done => exact fun u ⟨_, hu⟩ => hu
  case internal =>
    exact fun m ms u ⟨h, hu⟩ hr => ⟨h.internal hr fun _ => trivial, traceOk_congr hu (complete_trace _ _ _)⟩
  case answered =>
    rintro m ms u r b e ⟨h, hu⟩ hr -
    refine ⟨h.answered hr b e, traceOk_append (ev := r.event u.devAddr b) hu ?_ (complete_trace _ _ _)⟩
    rw [Request.event_request]
    exact h.allowed hr
  case failed =>
    rintro m ms u r f e ⟨h, hu⟩ hr -
    refine traceOk_append (ev := r.failure u.devAddr f) hu ?_ (transportError_trace _ _)
    rw [Request.failure_request]
    exact h.allowed hr
  case blocked => exact fun m ms u r e ⟨_, hu⟩ _ _ => hu

/-- The request that `rst` abandons is one that the block may make. -/
theorem abandonedEvents_allowed {s : State} (h : Underway True s.phase s) :
    ∀ ev ∈ abandonedEvents s, ev.request.allowed = true := by
  cases hp : s.phase with
  | nil => simp [abandonedEvents_idle hp]
  | cons m ms =>
    cases hr : m.request s with
    | none => simp [abandonedEvents_internal hp hr]
    | some r =>
      rw [abandonedEvents_request hp hr, List.forall_mem_singleton]
      exact Underway.allowed (hp ▸ h) hr

/-- Settles O50: the request of every micro-step that `Underway` allows is in the map. -/
theorem stepKeepsTheTraceInTheMap : Obligations.StepKeepsTheTraceInTheMap := by
  intro s t hinv htrace h
  have hunderway := underway_of_inv hinv
  have htake : s.takeHost.inv = true := hinv
  obtain ⟨rest, -, rfl⟩ | ⟨-, rfl⟩ | ⟨-, -, rfl⟩ | ⟨-, -, rfl⟩ | ⟨w, -, ⟨i, hi, hexec⟩ | ⟨e, -, rfl⟩⟩ :=
    step_next_cases h
  · have habandoned := List.all_eq_true.mpr (abandonedEvents_allowed hunderway)
    rw [State.traceOk] at htrace ⊢
    rw [hardReset_trace, abandonedEvents_takeReset, List.all_append, habandoned, Bool.and_true]
    exact htrace
  · exact run_traceOk hunderway htrace
  · exact htrace
  · exact htrace
  · cases commandResult_of_exec (isCommand_of_decode hi) hexec with
    | refused | answered => exact htrace
    | ran hstarts => exact run_traceOk (hstarts.underway (underway_of_inv htake)) (by cases hstarts <;> exact htrace)
  · exact htrace

end Sys2Proof.Machine
end

section
/-! PROOFS. What a step can change of the lifecycle, the coefficients, the mode and the shadow (spec/10_state.md R20, R26,
spec/41_codec_config.md R158, spec/42_mode_read.md R173, R179). -/

namespace Sys2Proof.Machine

/-- What a step does to the block, for what these rules ask: `rst`, nothing but a response or a word taken from the
port, going on with a command, or starting one. -/
inductive StepResult (s : State) : State → Prop where
  | reset (hrst : s.noReset = false) : StepResult s (hardReset s.takeReset)
  | quiet {t : State} (hlife : t.life = s.life) (hcal : t.cal = s.cal) (hcfg : t.cfg = s.cfg) (hmem : t.mem = s.mem) :
      StepResult s t
  | resumed (hbusy : s.phase ≠ []) : StepResult s (run s.phase s)
  | started {w : CmdWord} {i : Instr} {ms : List Micro} {u : State} (hw : s.issued = some w)
      (hi : decode (.command w) = .ok i) (h : Starts s.takeHost i ms u) : StepResult s (run ms u)

theorem stepResult_of_step {s t : State} (h : step s = .next t) : StepResult s t := by
  obtain ⟨rest, hrst, rfl⟩ | ⟨hbusy, rfl⟩ | ⟨-, -, rfl⟩ | ⟨-, -, rfl⟩ | ⟨w, hw, ⟨i, hi, hexec⟩ | ⟨e, -, rfl⟩⟩ :=
    step_next_cases h
  · exact .reset (by simp [State.noReset, hrst])
  · exact .resumed hbusy
  · exact .quiet rfl rfl rfl rfl
  · exact .quiet rfl rfl rfl rfl
  · cases commandResult_of_exec (isCommand_of_decode hi) hexec with
    | refused | answered => exact .quiet rfl rfl rfl rfl
    | ran hstarts => exact .started hw hi hstarts
  · exact .quiet rfl rfl rfl rfl

/-! ## In READY -/

theorem Underway.readyRest {reverts : Prop} {ms : List Micro} {s : State} (h : Underway reverts ms s)
    (hready : s.life = .ready) : ReadyRest s.cfg.mode s.data ms := by
  cases h.rest with
  | ready _ _ _ hrest => exact hrest
  | init hlife => cases hlife.symm.trans hready

theorem Underway.shadow {reverts : Prop} {ms : List Micro} {s : State} (h : Underway reverts ms s)
    (hready : s.life = .ready) : Shadow reverts s.mem s.cfg := by
  cases h.rest with
  | ready _ _ hshadow => exact hshadow
  | init hlife => cases hlife.symm.trans hready

theorem Underway.initRest {reverts : Prop} {ms : List Micro} {s : State} (h : Underway reverts ms s)
    (hlife : s.life = .unconstructed) : InitRest reverts s.rawCal s.cal s.cfg s.mem ms := by
  cases h.rest with
  | ready hready => cases hready.symm.trans hlife
  | init _ hrest => exact hrest

/-- The rest of a READ. -/
theorem mem_dataReads_drop_append {m : Micro} {n : Nat} {forced : Bool}
    (h : m ∈ dataReads.drop n ++ [Micro.deliver forced]) :
    (∃ j < 8, m = .readData j) ∨ m = .deliver forced := by
  rw [List.mem_append, List.mem_singleton] at h
  exact h.imp_left fun h => mem_dataReads.mp (List.mem_of_mem_drop h)

theorem ReadyRest.not_writesInstance {mode : BitVec 2} {data : List Byte} {ms : List Micro}
    (h : ReadyRest mode data ms) : ∀ m ∈ ms, m.writesInstance = false := by
  have hreads : ∀ n forced, ∀ m ∈ dataReads.drop n ++ [Micro.deliver forced], m.writesInstance = false := by
    intro n forced m hm
    obtain ⟨j, -, rfl⟩ | rfl := mem_dataReads_drop_append hm <;> rfl
  cases h with
  | read => exact List.forall_mem_cons.mpr ⟨rfl, hreads _ _⟩
  | wait => exact List.forall_mem_cons.mpr ⟨rfl, hreads 0 true⟩
  | _ => simp [Micro.writesInstance]

theorem Starts.ne_init {s u : State} {i : Instr} {ms : List Micro} (h : Starts s i ms u) (hready : s.life = .ready) :
    ∀ arg, i ≠ .init arg := by
  rintro arg rfl
  cases h with
  | init hlife => cases hlife.symm.trans hready

/-- A step from READY that is not `rst` keeps the coefficients. -/
theorem StepResult.ready {s t : State} (hinv : s.inv = true) (hready : s.life = .ready) (h : StepResult s t) :
    s.noReset = false ∧ t.life = .unconstructed ∨ t.life = .ready ∧ t.cal = s.cal := by
  cases h with
  | reset hrst => exact .inl ⟨hrst, rfl⟩
  | quiet hlife hcal => exact .inr ⟨hlife.trans hready, hcal⟩
  | resumed =>
    have hsame := run_sameInstance hready ((underway_of_inv hinv).readyRest hready).not_writesInstance
    exact .inr ⟨hsame.life.trans hready, hsame.cal⟩
  | started hw hi hstarts =>
    obtain ⟨-, hu, hms⟩ := hstarts.not_init (hstarts.ne_init hready)
    have hsame := hu.trans (run_sameInstance (hu.life.trans hready) hms)
    exact .inr ⟨hsame.life.trans hready, hsame.cal⟩

/-- Settles O51. -/
theorem coefficientsNeverChangeWhileReady : Obligations.CoefficientsNeverChangeWhileReady := by
  intro s t hinv hready h ht
  obtain ⟨-, hlife⟩ | ⟨-, hcal⟩ := (stepResult_of_step h).ready hinv hready
  · cases hlife.symm.trans ht
  · exact hcal

/-! ## Into READY -/

/-- The last micro-step of an INIT that makes the block READY is its response. -/
def AtResponse (ms : List Micro) (s : State) : Prop :=
  s.cal.isSome = true ∧ (ms = [.respondOk] ∨ (ms = [] ∧ s.resp = ⟨0, 0⟩))

theorem run_becomes_ready {ms : List Micro} {s : State} (h : Underway True ms s) (hlife : s.life = .unconstructed)
    (hready : (run ms s).life = .ready) :
    (run ms s).phase = [] ∧ (run ms s).resp = ⟨0, 0⟩ ∧ (run ms s).cal.isSome = true := by
  refine run_induction (I := fun ms u => Underway True ms u ∧ (u.life = .ready → AtResponse ms u))
    (Q := fun t => t.life = .ready → t.phase = [] ∧ t.resp = ⟨0, 0⟩ ∧ t.cal.isSome = true)
    ?done ?internal ?answered ?failed ?blocked ms s ⟨h, fun hr => by cases hlife.symm.trans hr⟩ hready
  case done =>
    rintro u ⟨-, hlast⟩ hr
    obtain ⟨hcal, ⟨⟨⟩⟩ | ⟨-, hresp⟩⟩ := hlast hr
    exact ⟨rfl, hresp, hcal⟩
  case internal =>
    rintro m ms u ⟨hu, hlast⟩ hreq
    refine ⟨hu.internal hreq fun _ => trivial, fun hr => ?_⟩
    cases hl : u.life with
    | ready =>
      obtain ⟨hcal, ⟨⟨⟩⟩ | ⟨⟨⟩, -⟩⟩ := hlast hl
      exact ⟨hcal, .inr ⟨rfl, rfl⟩⟩
    | unconstructed =>
      cases hu.initRest hl with
      | parse => cases hl.symm.trans hr
      | becomeReady hcal => exact ⟨hcal, .inl rfl⟩
      | _ => cases hreq
  case answered =>
    rintro m ms u r b e ⟨hu, hlast⟩ hreq -
    refine ⟨hu.answered hreq b e, fun hr => ?_⟩
    cases hl : u.life with
    | ready =>
      obtain ⟨hcal, ⟨⟨⟩⟩ | ⟨⟨⟩, -⟩⟩ := hlast hl
      cases hreq
    | unconstructed =>
      cases hu.initRest hl with
      | parse | becomeReady => cases hreq
      | _ => cases hl.symm.trans hr
  case failed =>
    rintro m ms u r f e ⟨hu, hlast⟩ hreq - hr
    rw [transportError_life] at hr
    obtain ⟨hcal, ⟨⟨⟩⟩ | ⟨⟨⟩, -⟩⟩ := hlast hr
    cases hreq
  case blocked =>
    rintro m ms u r e ⟨hu, hlast⟩ hreq - hr
    obtain ⟨hcal, ⟨⟨⟩⟩ | ⟨⟨⟩, -⟩⟩ := hlast hr
    cases hreq

theorem InitRest.eq_drop {reverts : Prop} {rawCal : List Byte} {cal : Option CalibrationData} {cfg : DeviceConfig}
    {mem : Memory} {ms : List Micro} (h : InitRest reverts rawCal cal cfg mem ms) :
    ∃ k, ms = (calibReads ++ initTail).drop k := by
  cases h with
  | idle => exact ⟨38, rfl⟩
  | read hlen =>
    refine ⟨rawCal.length, ?_⟩
    rw [List.drop_append_of_le_length (by simpa [calibReads] using hlen.le), calibReads_drop hlen]
    rfl
  | parse => exact ⟨32, rfl⟩
  | pushHum => exact ⟨33, rfl⟩
  | pushMeas => exact ⟨34, rfl⟩
  | pushConfig => exact ⟨35, rfl⟩
  | becomeReady => exact ⟨36, rfl⟩

/-- Settles O52. -/
theorem lifecycleTransitions : Obligations.LifecycleTransitions := by
  intro s t hinv h
  have hresult := stepResult_of_step h
  refine ⟨fun hready ht => ?_, fun hlife ht => ?_⟩
  · obtain ⟨hrst, -⟩ | ⟨htr, -⟩ := hresult.ready hinv hready
    · exact hrst
    · cases htr.symm.trans ht
  · have hunderway := underway_of_inv hinv
    cases hresult with
    | reset => cases ht
    | quiet htl => cases (htl.trans hlife).symm.trans ht
    | resumed hbusy =>
      obtain ⟨hphase, hresp, hcal⟩ := run_becomes_ready hunderway hlife ht
      exact ⟨hphase, hresp, hcal, .inr ⟨hbusy, (hunderway.initRest hlife).eq_drop⟩⟩
    | started hw hi hstarts =>
      have hms := hstarts.underway (underway_of_inv (s := s.takeHost) hinv)
      cases hstarts with
      | init =>
        obtain ⟨hphase, hresp, hcal⟩ := run_becomes_ready hms hlife ht
        exact ⟨hphase, hresp, hcal, .inl ⟨State.issued_phase hw, _, _, hw, hi⟩⟩
      | setOsrsH hl | setOsrsT hl | setOsrsP hl | setMode hl | setStandby hl | setFilter hl => cases hl.symm.trans hlife
      | read hl | getMeasuring hl | getImUpdate hl | readChipId hl | softReset hl => cases hl.symm.trans hlife

/-! ## The mode -/

/-- The micro-steps that write the mode. -/
def Micro.writesMode : Micro → Bool
  | .parse | .setMode _ | .deliver true => true
  | _ => false

theorem complete_mode {m : Micro} (hm : m.writesMode = false) (b : Byte) (s : State) :
    (m.complete b s).cfg.mode = s.cfg.mode := by
  cases m with
  | parse | setMode => cases hm
  | deliver forced =>
    cases forced with
    | true => cases hm
    | false => rfl
  | _ => rfl

/-- A run reaches `rest` with the mode it started with, or ends before it with that mode. -/
theorem run_mode_cases {pre rest : List Micro} {s : State} (hready : s.life = .ready)
    (hpre : ∀ m ∈ pre, m.writesInstance = false ∧ m.writesMode = false) :
    (run (pre ++ rest) s).cfg.mode = s.cfg.mode ∨
      ∃ u, u.life = .ready ∧ u.cfg.mode = s.cfg.mode ∧ run (pre ++ rest) s = run rest u := by
  induction pre generalizing s with
  | nil => exact .inr ⟨s, hready, rfl, rfl⟩
  | cons m pre ih =>
    obtain ⟨⟨hinstance, hmode⟩, hpre'⟩ := List.forall_mem_cons.mp hpre
    have hlife := fun b u => (sameInstance_complete hinstance b u).life
    rw [List.cons_append]
    cases hr : m.request s with
    | none =>
      rw [run_internal _ hr, ← complete_mode hmode 0 s]
      exact ih ((hlife 0 s).trans hready) hpre'
    | some r =>
      obtain ⟨b, e, -, ha⟩ | ⟨f, e, -, ha⟩ | ⟨e, -, ha⟩ := ask_outcome r s
      · have hstep := ih (s := m.complete b (s.answered r b e)) ((hlife b _).trans hready) hpre'
        rw [complete_mode hmode, answered_cfg] at hstep
        rwa [run_done _ hr ha]
      · rw [run_failed _ hr ha, transportError_ready (s := s.failed r f e) f hready]
        exact .inl rfl
      · rw [run_blocked _ hr ha]
        exact .inl rfl

theorem run_mode {ms : List Micro} {s : State} (hready : s.life = .ready)
    (hms : ∀ m ∈ ms, m.writesInstance = false ∧ m.writesMode = false) : (run ms s).cfg.mode = s.cfg.mode := by
  rw [← List.append_nil ms]
  obtain hmode | ⟨u, -, hu, hrun⟩ := run_mode_cases (rest := []) hready hms
  · exact hmode
  · rw [hrun]
    exact hu

/-- R171: a SET_MODE that changes the mode has answered OK. -/
theorem run_setMode {arg : Byte} {s : State} (hready : s.life = .ready)
    (hne : (run [.setMode arg, .respondOk] s).cfg.mode ≠ s.cfg.mode) :
    (run [.setMode arg, .respondOk] s).cfg.mode = argCode2 arg ∧ (run [.setMode arg, .respondOk] s).phase = [] ∧
      (run [.setMode arg, .respondOk] s).resp = ⟨0, 0⟩ := by
  obtain ⟨r, hr⟩ : ∃ r, (Micro.setMode arg).request s = some r := ⟨_, rfl⟩
  obtain ⟨b, e, -, ha⟩ | ⟨f, e, -, ha⟩ | ⟨e, -, ha⟩ := ask_outcome r s
  · rw [run_done _ hr ha]
    exact ⟨rfl, rfl, rfl⟩
  · rw [run_failed _ hr ha, transportError_ready (s := s.failed r f e) f hready] at hne
    exact absurd rfl hne
  · rw [run_blocked _ hr ha] at hne
    exact absurd rfl hne

/-- R179: a READ that changes the mode has delivered. -/
theorem run_read_reverts {pre : List Micro} {s : State} (hready : s.life = .ready)
    (hpre : ∀ m ∈ pre, m.writesInstance = false ∧ m.writesMode = false)
    (hne : (run (pre ++ [Micro.deliver true]) s).cfg.mode ≠ s.cfg.mode) :
    (run (pre ++ [Micro.deliver true]) s).cfg.mode = modeSleep ∧ (run (pre ++ [Micro.deliver true]) s).phase = [] ∧
      (run (pre ++ [Micro.deliver true]) s).resp.status = 0 := by
  obtain hmode | ⟨u, -, -, hrun⟩ := run_mode_cases (rest := [.deliver true]) hready hpre
  · exact absurd hmode hne
  · rw [hrun, run_deliver]
    exact ⟨rfl, rfl, rfl⟩

/-- The remainders in READY by what they may make of the mode. -/
theorem ReadyRest.mode_cases {mode : BitVec 2} {data : List Byte} {ms : List Micro} (h : ReadyRest mode data ms) :
    (∀ m ∈ ms, m.writesMode = false) ∨ (∃ arg, modeLegal arg = true ∧ ms = [.setMode arg, .respondOk]) ∨
      (mode = modeForced ∧ ∃ k < 10, ms = (readSteps true).drop k ∧
        ∃ pre, ms = pre ++ [Micro.deliver true] ∧ ∀ m ∈ pre, m.writesInstance = false ∧ m.writesMode = false) := by
  have hreads : ∀ n, ∀ m ∈ dataReads.drop n, m.writesInstance = false ∧ m.writesMode = false := by
    intro n m hm
    obtain ⟨j, -, rfl⟩ := mem_dataReads.mp (List.mem_of_mem_drop hm)
    exact ⟨rfl, rfl⟩
  have hsteps : readSteps true = [Micro.waitSample] ++ dataReads ++ [Micro.deliver true] := rfl
  cases h with
  | setMode hlegal => exact .inr (.inl ⟨_, hlegal, rfl⟩)
  | wait hmode =>
    exact .inr (.inr ⟨hmode, 0, by decide, rfl, _, rfl, List.forall_mem_cons.mpr ⟨⟨rfl, rfl⟩, hreads 0⟩⟩)
  | read hlen =>
    rw [← List.cons_append, ← dataReads_drop hlen]
    by_cases hmode : mode = modeForced
    · refine .inr (.inr ⟨hmode, data.length + 1, by omega, ?_, _, by rw [beq_iff_eq.mpr hmode], hreads _⟩)
      rw [beq_iff_eq.mpr hmode, hsteps, List.append_assoc, List.singleton_append, List.drop_succ_cons,
        List.drop_append_of_le_length (by simpa [dataReads] using hlen.le)]
    · rw [beq_eq_false_iff_ne.mpr hmode]
      refine .inl fun m hm => ?_
      obtain ⟨j, -, rfl⟩ | rfl := mem_dataReads_drop_append hm <;> rfl
  | deliver =>
    by_cases hmode : mode = modeForced
    · rw [beq_iff_eq.mpr hmode]
      exact .inr (.inr ⟨hmode, 9, by decide, rfl, [], rfl, nofun⟩)
    · rw [beq_eq_false_iff_ne.mpr hmode]
      exact .inl (by simp [Micro.writesMode])
  | _ => exact .inl (by simp [Micro.writesMode])

/-- SET_MODE alone has its micro-step, and a READ in Forced alone delivers with the auto-revert. -/
theorem Starts.of_mem {s u : State} {i : Instr} {ms : List Micro} (h : Starts s i ms u) :
    (∀ arg, .setMode arg ∈ ms → i = .setMode arg) ∧ (.deliver true ∈ ms → i = .read ∧ s.cfg.mode = modeForced) := by
  cases h with
  | init => simp [mem_calibReads, initTail]
  | read =>
    refine ⟨fun arg hm => ?_, fun hm => ⟨rfl, ?_⟩⟩
    · obtain h | ⟨j, -, h⟩ | h := mem_readSteps hm <;> cases h
    · obtain h | ⟨j, -, h⟩ | h := mem_readSteps hm
      · cases h
      · cases h
      · exact beq_iff_eq.mp (Micro.deliver.inj h).symm
  | _ => simp

/-- No step stops before the delivery of a READ. -/
theorem phase_ne_deliver {s : State} (hinv : s.inv = true) (hready : s.life = .ready) : s.phase ≠ [.deliver true] := by
  intro hp
  simp [State.inv, State.lifeOk, hready, State.readyPhaseOk, hp, readPhaseOk, setPhaseOk] at hinv

/-- Settles O53. -/
theorem modeChangesOnlyBySetModeOrRead : Obligations.ModeChangesOnlyBySetModeOrRead := by
  intro s t hinv hready h htready hne
  have hunderway := underway_of_inv hinv
  cases stepResult_of_step h with
  | reset => cases htready
  | quiet _ _ hcfg => exact absurd (congrArg DeviceConfig.mode hcfg) hne
  | resumed =>
    have hrest := hunderway.readyRest hready
    obtain hms | ⟨arg, hlegal, hms⟩ | ⟨hforced, k, hk, hms, pre, hpre, hall⟩ := hrest.mode_cases
    · exact absurd (run_mode hready fun m hm => ⟨hrest.not_writesInstance m hm, hms m hm⟩) hne
    · rw [hms] at hne ⊢
      obtain ⟨hmode, hphase, hresp⟩ := run_setMode hready hne
      exact .inl ⟨arg, hmode.trans (argCode2_eq_setWidth arg), modeLegal_iff.mp hlegal, .inr rfl, hphase, hresp⟩
    · have hlast : k ≠ 9 := by
        rintro rfl
        exact phase_ne_deliver hinv hready hms
      rw [hpre] at hne
      obtain ⟨hmode, hphase, hresp⟩ := run_read_reverts hready hall hne
      rw [hpre]
      exact .inr ⟨hforced, hmode, hphase, hresp, .inr ⟨k, by omega, hpre ▸ hms⟩⟩
  | @started w i ms u hw hi hstarts =>
    obtain ⟨-, hu, hnot⟩ := hstarts.not_init (hstarts.ne_init hready)
    have hul : u.life = .ready := hu.life.trans hready
    have hucfg : u.cfg = s.cfg := (hstarts.keepsFrame (hstarts.ne_init hready)).1
    have hrest := (hstarts.underway (underway_of_inv (s := s.takeHost) hinv)).readyRest hul
    obtain ⟨hset, hread⟩ := hstarts.of_mem
    rw [← hucfg] at hne ⊢
    obtain hms | ⟨arg, hlegal, rfl⟩ | ⟨hforced, k, hk, hms, pre, rfl, hall⟩ := hrest.mode_cases
    · exact absurd (run_mode hul fun m hm => ⟨hnot m hm, hms m hm⟩) hne
    · obtain ⟨hmode, hphase, hresp⟩ := run_setMode hul hne
      have hdecode := hset arg List.mem_cons_self ▸ hi
      exact .inl ⟨arg, hmode.trans (argCode2_eq_setWidth arg), modeLegal_iff.mp hlegal,
        .inl ⟨w, hw, hdecode⟩, hphase, hresp⟩
    · obtain ⟨hmode, hphase, hresp⟩ := run_read_reverts hul hall hne
      have hdecode := (hread (List.mem_append_right pre List.mem_cons_self)).1 ▸ hi
      exact .inr ⟨hforced, hmode, hphase, hresp, .inl ⟨w, hw, hdecode⟩⟩

/-! ## The shadow -/

/-- Without an auto-revert, ctrl-meas stays exactly what DeviceConfig says. -/
theorem run_shadowExact {ms : List Micro} {s : State} (h : Underway False ms s) (hms : .deliver true ∉ ms)
    (hready : (run ms s).life = .ready) : (run ms s).shadowExact = true := by
  refine run_induction (I := fun ms u => Underway False ms u ∧ .deliver true ∉ ms)
    (Q := fun t => t.life = .ready → t.shadowExact = true) ?done ?internal ?answered ?failed ?blocked
    ms s ⟨h, hms⟩ hready
  case done => exact fun u ⟨hu, _⟩ hl => (hu.shadow hl).exact
  case internal =>
    rintro m ms u ⟨hu, hnot⟩ hreq
    exact ⟨hu.internal hreq fun hm => hnot (hm ▸ List.mem_cons_self), fun hm => hnot (List.mem_cons_of_mem m hm)⟩
  case answered =>
    rintro m ms u r b e ⟨hu, hnot⟩ hreq -
    exact ⟨hu.answered hreq b e, fun hm => hnot (List.mem_cons_of_mem m hm)⟩
  case failed =>
    rintro m ms u r f e ⟨hu, -⟩ - - hl
    rw [transportError_life] at hl
    rw [transportError_ready f hl]
    exact (hu.shadow hl).exact
  case blocked => exact fun m ms u r e ⟨hu, _⟩ _ _ hl => (hu.shadow hl).exact

/-- In READY an exact register makes an exact shadow. -/
theorem Underway.of_exact {ms : List Micro} {s : State} (h : Underway True ms s) (hready : s.life = .ready)
    (hexact : s.shadowExact = true) : Underway False ms s := by
  obtain ⟨hmem, hcfg, hcal, hstatus, hrest⟩ := h
  cases hrest with
  | ready hlife hsome hshadow hrest =>
    exact ⟨hmem, hcfg, hcal, hstatus, .ready hlife hsome (hshadow.of_exact hexact) hrest⟩
  | init hlife => cases hlife.symm.trans hready

/-- Settles O54. -/
theorem shadowPartsOnlyByAutoRevert : Obligations.ShadowPartsOnlyByAutoRevert := by
  intro s t hinv hidle hready hexact h htready hparted
  cases stepResult_of_step h with
  | reset => cases htready
  | quiet _ _ hcfg hmem =>
    rw [State.shadowExact, hcfg, hmem, ← State.shadowExact, hexact] at hparted
    cases hparted
  | resumed hbusy => exact absurd hidle hbusy
  | @started w i ms u hw hi hstarts =>
    have hfalse := (underway_of_inv (s := s.takeHost) hinv).of_exact hready hexact
    by_cases hdeliver : .deliver true ∈ ms
    · obtain ⟨rfl, hforced⟩ := hstarts.of_mem.2 hdeliver
      refine ⟨w, hw, hi, hforced, ?_⟩
      obtain heq | ⟨-, hsleep, -⟩ := ((underway_of_inv (stepKeepsTheInvariant s _ hinv h)).shadow htready).meas
      · rw [State.shadowExact, heq, beq_self_eq_true] at hparted
        cases hparted
      · exact hsleep
    · rw [run_shadowExact (hstarts.underway hfalse) hdeliver htready] at hparted
      cases hparted

end Sys2Proof.Machine
end

section
/-! PROOFS. The sensor's side after an INIT and after a SET_OSRS_H (spec/20_memory.md R62,
spec/70_reset_and_hazards.md R254, R255). -/

namespace Sys2Proof.Machine

theorem sensorView_append (trace evs : List Event) :
    sensorView (trace ++ evs) = evs.foldl SensorView.after (sensorView trace) :=
  List.foldl_append

/-- A command whose next micro-step is a bus transaction answers OK only if BUS completes the transaction. -/
theorem busReply_of_run_ok {m : Micro} {ms : List Micro} {s : State} {r : Request} (hr : m.request s = some r)
    (hbus : r.isBus = true) (hdone : (run (m :: ms) s).phase = []) (hok : (run (m :: ms) s).resp.status = 0) :
    ∃ x, s.env.busReply = .ok x := by
  cases hreply : s.env.busReply with
  | ok x => exact ⟨x, rfl⟩
  | fail f =>
    rw [run_failed ms hr (ask_bus_fail hbus hreply), transportError_resp] at hok
    cases hok
  | pending =>
    rw [run_blocked ms hr (ask_bus_pending hbus hreply)] at hdone
    cases hdone

/-- A SET_OSRS_H that answers OK has a legal argument, and BUS has answered both its writes. -/
theorem answers_of_setOsrsH_ok {s t : State} {arg : Byte} (hidle : s.phase = []) (hready : s.life = .ready)
    (h : exec (.setOsrsH arg) s = .next t) (hdone : t.phase = []) (hok : t.resp.status = 0) :
    arg.toNat ≤ 5 ∧ ∃ x y, s.env.answers [x, y] := by
  have hcode : arg.toNat ≤ 5 := by
    by_contra hbig
    cases h.symm.trans ((setOsrsHWritesBothRegisters s arg hidle).2.1 hready (by omega))
    cases hok
  cases h.symm.trans (exec_of_starts hidle (.setOsrsH hready (oversamplingLegal_iff.mpr hcode)))
  obtain ⟨x, hx⟩ := busReply_of_run_ok rfl rfl hdone hok
  rw [run_write_ok _ rfl hx] at hdone hok
  obtain ⟨y, hy⟩ := busReply_of_run_ok rfl rfl hdone hok
  exact ⟨hcode, x, y, hx, hy, trivial⟩

/-- Settles O60: the write of ctrl-meas after that of ctrl-hum puts the code in effect. -/
theorem setOsrsHCommitsHumidity : Obligations.SetOsrsHCommitsHumidity := by
  intro s t arg hidle hready h hdone hok
  obtain ⟨hcode, x, y, hans⟩ := answers_of_setOsrsH_ok hidle hready h hdone hok
  obtain ⟨hboth, -⟩ := (setOsrsHWritesBothRegisters s arg hidle).2.2 hready hcode
  cases h.symm.trans (hboth x y hans)
  rw [sensorView_append]
  exact ⟨rfl, rfl, hcode⟩

/-- An INIT that makes the block READY has a legal argument, and BUS has answered its 35 transactions. -/
theorem answers_of_init_ready {s t : State} {arg : Byte} (hlife : s.life = .unconstructed)
    (h : exec (.init arg) s = .next t) (hready : t.life = .ready) :
    arg.toNat < 128 ∧ ∃ bs, bs.length = 35 ∧ s.env.answers bs := by
  cases commandResult_of_exec rfl h with
  | refused => cases hlife.symm.trans hready
  | answered d hlife' => cases hlife.symm.trans hlife'
  | ran hstarts =>
    cases hstarts with
    | init _ hlegal =>
      rw [calibReads_append_initTail] at hready
      obtain ⟨bs, hlen, hans⟩ | hkeeps := answers_or_run_life (rest := [.becomeReady, .respondOk])
        (s := { s with devAddr := argDevAddr arg, rawCal := [] }) fun _ hm => hm
      · exact ⟨addressLegal_iff.mp hlegal, bs, hlen.trans transactions_initWork, hans⟩
      · cases (hkeeps.symm.trans hready).symm.trans hlife

/-- Settles O59: the last three of INIT's transactions are the three writes (O17). -/
theorem initSettlesTheSensor : Obligations.InitSettlesTheSensor := by
  intro s t arg hidle hlife h hready
  obtain ⟨harg, bs, hlen, hans⟩ := answers_of_init_ready hlife h hready
  obtain ⟨w1, w2, w3, hlast⟩ := List.length_eq_three.mp (show (bs.drop 32).length = 3 by simp [hlen])
  rw [← List.take_append_drop 32 bs, hlast] at hans
  cases h.symm.trans (initConstructs s arg w1 w2 w3 (bs.take 32) hidle hlife harg (by simp [hlen]) hans)
  rw [sensorView_append]
  exact ⟨rfl, rfl, rfl, rfl⟩

end Sys2Proof.Machine
end

section
/-! PROOFS. MEASURE (spec/30_encoding.md R96): SET_MODE forced, and READ once it has answered OK. -/

namespace Sys2Proof.Machine

/-! ## The other agents do not see the host's inputs -/

/-- The other agents with these inputs of the host. -/
def Env.withHost (e : Env) (inputs : List HostEvent) : Env := { e with host := inputs }

/-- The state with these inputs of the host. -/
def State.withHost (s : State) (inputs : List HostEvent) : State := { s with env := s.env.withHost inputs }

theorem afterBus_withHost (e : Env) (inputs : List HostEvent) :
    (e.withHost inputs).afterBus = e.afterBus.withHost inputs := by
  unfold Env.afterBus Env.withHost
  cases e.busIn <;> rfl

theorem afterDelay_withHost (e : Env) (inputs : List HostEvent) :
    (e.withHost inputs).afterDelay = e.afterDelay.withHost inputs := by
  unfold Env.afterDelay Env.withHost
  cases e.delayIn <;> rfl

theorem answers_withHost {e : Env} (inputs : List HostEvent) {bs : List Byte} (h : e.answers bs) :
    (e.withHost inputs).answers bs := by
  induction bs generalizing e with
  | nil => trivial
  | cons b bs ih =>
    obtain ⟨hb, hbs⟩ := h
    exact ⟨hb, afterBus_withHost e inputs ▸ ih hbs⟩

theorem afterBusN_host (n : Nat) (e : Env) : (e.afterBusN n).host = e.host := by
  induction n generalizing e with
  | zero => rfl
  | succ n ih => exact (ih e.afterBus).trans (afterBus_host e)

/-! ## SET_MODE forced -/

/-- The state after a SET_MODE forced whose write completes. -/
def State.forcedOk (s : State) : State :=
  { s with
    cfg := { s.cfg with mode := 1 }
    resp := ⟨0, 0⟩
    mem := s.mem.write 0xF4 ({ s.cfg with mode := 1 } : DeviceConfig).ctrlMeas
    trace := s.trace ++ [Event.write s.devAddr 0xF4 ({ s.cfg with mode := 1 } : DeviceConfig).ctrlMeas]
    env := s.env.afterBus }

/-- The state after one whose write fails. -/
def State.forcedFail (f : Token) (s : State) : State :=
  { s with
    data := []
    resp := ⟨1, f.setWidth 64⟩
    trace := s.trace ++ [Event.writeFail s.devAddr 0xF4 ({ s.cfg with mode := 1 } : DeviceConfig).ctrlMeas f]
    env := s.env.afterBus }

/-- The state in which one waits for the answer to its write. -/
def State.forcedPending (s : State) : State := { s with phase := [.setMode 1, .respondOk], env := s.env.afterBus }

theorem forcedOk_withHost (s : State) (inputs : List HostEvent) :
    (s.withHost inputs).forcedOk = s.forcedOk.withHost inputs := by
  simp only [State.forcedOk, State.withHost, afterBus_withHost]

theorem forcedFail_withHost (f : Token) (s : State) (inputs : List HostEvent) :
    (s.withHost inputs).forcedFail f = (s.forcedFail f).withHost inputs := by
  simp only [State.forcedFail, State.withHost, afterBus_withHost]

theorem forcedPending_withHost (s : State) (inputs : List HostEvent) :
    (s.withHost inputs).forcedPending = s.forcedPending.withHost inputs := by
  simp only [State.forcedPending, State.withHost, afterBus_withHost]

/-- SET_MODE forced in READY, by how BUS answers (O31). -/
theorem exec_setMode_forced (s : State) (hidle : s.phase = []) (hready : s.life = .ready) :
    (∀ x, s.env.busReply = .ok x → exec (.setMode 1) s = .next s.forcedOk) ∧
    (∀ f, s.env.busReply = .fail f → exec (.setMode 1) s = .next (s.forcedFail f)) ∧
    (s.env.busReply = .pending → exec (.setMode 1) s = .next s.forcedPending) := by
  obtain ⟨c, b, rfl, -, rfl, hok, hfail⟩ := (setModeWritesCtrlMeas s 1 hidle).2.2 hready (.inr (.inl rfl))
  refine ⟨hok, hfail, fun hpending => ?_⟩
  rw [exec_of_starts hidle (.setMode hready rfl), run_blocked (m := .setMode 1) _ rfl (ask_bus_pending rfl hpending)]
  rfl

/-- The late answer. -/
theorem run_setMode_forced (s : State) {x : Byte} (hidle : s.phase = []) (hready : s.life = .ready)
    (hx : s.env.busReply = .ok x) : run [.setMode 1, .respondOk] s = s.forcedOk := by
  have hexec := exec_of_starts hidle (.setMode hready (arg := 1) rfl)
  rw [(exec_setMode_forced s hidle hready).1 x hx] at hexec
  exact (Host.Outcome.next.inj hexec).symm

/-! ## The two steps of MEASURE -/

/-- READ waits for an OK on the port, before the host's other inputs. -/
def readWaits (inputs : List HostEvent) : List HostEvent := .cmdIfOk (commandWord 0x30 0) :: inputs

/-- The first step is SET_MODE forced. -/
theorem step_placeMeasure {s : State} (hidle : s.phase = []) :
    step (placeMeasure s) = exec (.setMode 1) (s.withHost (readWaits s.env.host)) := by
  have hstep := stepRunsTheDecodedCommand (placeMeasure s) (commandWord 0x13 1) _ (.setMode 1) rfl (.inl rfl)
    (decodeEncodeRoundTrip (.setMode 1))
  rw [hstep, placeMeasure, ← hidle]
  rfl

/-- The first step in READY, by how BUS answers. -/
theorem step_placeMeasure_ready {s : State} (hidle : s.phase = []) (hready : s.life = .ready) :
    (∀ x, s.env.busReply = .ok x → step (placeMeasure s) = .next (s.forcedOk.withHost (readWaits s.env.host))) ∧
    (∀ f, s.env.busReply = .fail f → step (placeMeasure s) = .next ((s.forcedFail f).withHost (readWaits s.env.host))) ∧
    (s.env.busReply = .pending → step (placeMeasure s) = .next (s.forcedPending.withHost (readWaits s.env.host))) := by
  simp only [step_placeMeasure hidle, ← forcedOk_withHost, ← forcedFail_withHost, ← forcedPending_withHost]
  exact exec_setMode_forced (s.withHost (readWaits s.env.host)) hidle hready

/-- The second is READ when SET_MODE has answered OK. -/
theorem step_readWaits_ok (u : State) (inputs : List HostEvent) (hidle : u.phase = []) (hok : u.resp.status = 0) :
    step (u.withHost (readWaits inputs)) = exec .read (u.withHost inputs) :=
  stepRunsTheDecodedCommand _ _ inputs .read hidle (.inr ⟨rfl, hok⟩) (decodeEncodeRoundTrip .read)

/-- The second drops the READ when it has not. -/
theorem step_readWaits_error (u : State) (inputs : List HostEvent) (hidle : u.phase = []) (herror : u.resp.status ≠ 0) :
    step (u.withHost (readWaits inputs)) = .next (u.withHost inputs) :=
  followUpIsNotIssuedAfterAnError _ _ inputs hidle rfl herror

/-- The step that goes on with SET_MODE when its write is answered: READ waits on. -/
theorem step_forced_late {u : State} {x : Byte} (inputs : List HostEvent) (hidle : u.phase = [])
    (hready : u.life = .ready) (hx : u.env.busReply = .ok x) :
    step (State.withHost { u with phase := [.setMode 1, .respondOk] } (readWaits inputs)) =
      .next (u.forcedOk.withHost (readWaits inputs)) := by
  rw [step_busy (List.cons_ne_nil _ _) rfl, ← forcedOk_withHost,
    ← run_setMode_forced (u.withHost (readWaits inputs)) hidle hready hx]
  exact congrArg _ (run_withPhase _ (u.withHost (readWaits inputs)) _)

/-- Settles O56: the step of SET_MODE, and then that of READ in Forced (O35). -/
theorem measureDeliversOneSample : Obligations.MeasureDeliversOneSample := by
  intro s x d0 d1 d2 d3 d4 d5 d6 d7 hidle hready hx hdelay hdata
  have hset := (step_placeMeasure_ready hidle hready).1 x hx
  have hread := forcedReadWaitsAndReverts (s.forcedOk.withHost s.env.host) d0 d1 d2 d3 d4 d5 d6 d7 hidle hready rfl
    hdelay (afterDelay_withHost _ _ ▸ answers_withHost s.env.host hdata)
  refine ⟨_, _, hset, (step_readWaits_ok s.forcedOk s.env.host hidle rfl).trans hread, hidle, rfl, rfl, hidle, rfl, ?_,
    rfl, rfl⟩
  exact (afterBusN_host 8 _).trans (afterDelay_host _)

/-- Settles O57. -/
theorem measureReadsOnlyAfterOk : Obligations.MeasureReadsOnlyAfterOk := by
  intro s hidle
  refine ⟨step_placeMeasure hidle, fun hlife => ?_, fun f hready hf => ?_, fun x hready hpending hx => ?_⟩
  · have hset := notConstructedBeforeInit (s.withHost (readWaits s.env.host)) (.setMode 1) rfl nofun hidle hlife
    exact ⟨_, (step_placeMeasure hidle).trans hset,
      step_readWaits_error { s with resp := ⟨3, 0⟩ } s.env.host hidle (by decide : (3 : BitVec 4) ≠ 0)⟩
  · have hset := (step_placeMeasure_ready hidle hready).2.1 f hf
    refine ⟨_, hset, (step_readWaits_error (s.forcedFail f) s.env.host hidle (by decide : (1 : BitVec 4) ≠ 0)).trans ?_⟩
    rw [← afterBus_host s.env]
    rfl
  · have hset := (step_placeMeasure_ready hidle hready).2.2 hpending
    have hlate := step_forced_late (u := { s with env := s.env.afterBus }) s.env.host hidle hready hx
    have hread := step_readWaits_ok (State.forcedOk { s with env := s.env.afterBus }) s.env.host hidle rfl
    refine ⟨_, _, hset, rfl, hlate, hidle, rfl, rfl, rfl, hread.trans ?_⟩
    rw [← afterBus_host s.env, ← afterBus_host s.env.afterBus]
    rfl

end Sys2Proof.Machine
end

section
/-! PROOFS. What cannot be observed of an UNCONSTRUCTED block (spec/40_calibration.md R119). -/

namespace Sys2Proof.Machine

/-- The state with another address, other coefficients and another DeviceConfig. -/
def State.withInstance (s : State) (dev : DevAddr) (cal : Option CalibrationData) (raw : List Byte)
    (cfg : DeviceConfig) : State :=
  { s with devAddr := dev, cal := cal, rawCal := raw, cfg := cfg }

theorem eq_withInstance_of_sameButInit {s s' : State} (h : sameButInit s s' = true) :
    s' = s.withInstance s'.devAddr s'.cal s'.rawCal s'.cfg := by
  have heq : s = s'.withInstance s.devAddr s.cal s.rawCal s.cfg := eq_of_beq h
  cases s
  cases s'
  simp_all [State.withInstance]

/-- INIT before its parse: the coefficients and DeviceConfig of before are overwritten, or forgotten in a failure. -/
theorem run_beforeParse_observed (js : List Nat) (rest : List Micro) {s : State} (cal : Option CalibrationData)
    (cfg : DeviceConfig) (hlife : s.life = .unconstructed) :
    (run (js.map Micro.readCal ++ Micro.parse :: rest) (s.withInstance s.devAddr cal s.rawCal cfg)).observed =
      (run (js.map Micro.readCal ++ Micro.parse :: rest) s).observed := by
  induction js generalizing s with
  | nil =>
    simp only [List.map_nil, List.nil_append]
    rw [run_internal (s := s.withInstance s.devAddr cal s.rawCal cfg) rest rfl, run_internal rest rfl]
    rfl
  | cons j js ih =>
    let s' := s.withInstance s.devAddr cal s.rawCal cfg
    simp only [List.map_cons, List.cons_append]
    cases hreply : s.env.busReply with
    | ok b =>
      rw [run_read_ok (s := s') _ rfl hreply, run_read_ok (s := s) _ rfl hreply]
      exact ih (s := (Micro.readCal j).complete b (s.answered (.read (calibAddr j)) b s.env.afterBus)) hlife
    | fail f =>
      rw [run_failed (s := s') _ rfl (ask_bus_fail rfl hreply), run_failed (s := s) _ rfl (ask_bus_fail rfl hreply),
        transportError_unconstructed (s := s'.failed _ f _) f hlife,
        transportError_unconstructed (s := s.failed _ f _) f hlife]
      rfl
    | pending =>
      rw [run_blocked (s := s') _ rfl (ask_bus_pending rfl hreply),
        run_blocked (s := s) _ rfl (ask_bus_pending rfl hreply)]
      rfl

/-- These registers of an UNCONSTRUCTED block do not show in what a command does. -/
theorem exec_withInstance_observed {s : State} {i : Instr} (hcmd : i.isCommand = true) (dev : DevAddr)
    (cal : Option CalibrationData) (raw : List Byte) (cfg : DeviceConfig) (hidle : s.phase = [])
    (hlife : s.life = .unconstructed) :
    ∃ t t', exec i s = .next t ∧ exec i (s.withInstance dev cal raw cfg) = .next t' ∧ t.observed = t'.observed := by
  by_cases hinit : ∃ arg, i = .init arg
  · obtain ⟨arg, rfl⟩ := hinit
    cases hlegal : addressLegal arg with
    | false => exact ⟨_, _, execInit_refused hidle hlife hlegal, execInit_refused hidle hlife hlegal, rfl⟩
    | true =>
      refine ⟨_, _, exec_of_starts hidle (.init hlife hlegal), exec_of_starts hidle (.init hlife hlegal), ?_⟩
      exact (run_beforeParse_observed (List.range 32) _ (s := { s with devAddr := argDevAddr arg, rawCal := [] }) cal
        cfg hlife).symm
  · have hne : ∀ arg, i ≠ .init arg := fun arg h => hinit ⟨arg, h⟩
    exact ⟨_, _, notConstructedBeforeInit s i hcmd hne hidle hlife,
      notConstructedBeforeInit (s.withInstance dev cal raw cfg) i hcmd hne hidle hlife, rfl⟩

/-- Nor do they show in what the port makes of an issued word. -/
theorem step_word_withInstance_observed {s : State} {w : CmdWord} {inputs : List HostEvent} (dev : DevAddr)
    (cal : Option CalibrationData) (raw : List Byte) (cfg : DeviceConfig) (hidle : s.phase = [])
    (hlife : s.life = .unconstructed)
    (hhost : s.env.host = .cmd w :: inputs ∨ (s.env.host = .cmdIfOk w :: inputs ∧ s.resp.status = 0)) :
    ∃ t t', step s = .next t ∧ step (s.withInstance dev cal raw cfg) = .next t' ∧ t.observed = t'.observed := by
  cases hdecode : decode (.command w) with
  | error e =>
    exact ⟨_, _, illegalWordAnswersIllegalCommand s w inputs e hidle hhost hdecode,
      illegalWordAnswersIllegalCommand (s.withInstance dev cal raw cfg) w inputs e hidle hhost hdecode, rfl⟩
  | ok i =>
    rw [stepRunsTheDecodedCommand s w inputs i hidle hhost hdecode,
      stepRunsTheDecodedCommand (s.withInstance dev cal raw cfg) w inputs i hidle hhost hdecode]
    exact exec_withInstance_observed (s := s.withHost inputs) (isCommand_of_decode hdecode) dev cal raw cfg hidle hlife

/-- Settles O55. -/
theorem unconstructedRegistersAreUnobservable : Obligations.UnconstructedRegistersAreUnobservable := by
  intro s s' hsame hlife hidle
  rw [eq_withInstance_of_sameButInit hsame]
  generalize s'.devAddr = dev, s'.cal = cal, s'.rawCal = raw, s'.cfg = cfg
  cases hhost : s.env.host with
  | nil =>
    exact ⟨_, _, idleBlockWaits s hidle hhost, idleBlockWaits (s.withInstance dev cal raw cfg) hidle hhost, rfl⟩
  | cons ev inputs =>
    cases ev with
    | rst =>
      obtain ⟨t, ht, hl, hp, hr, -, -, hm, he, htr, hab, -⟩ := hardResetAtAnyTime s inputs hhost
      obtain ⟨t', ht', hl', hp', hr', -, -, hm', he', htr', hab', -⟩ :=
        hardResetAtAnyTime (s.withInstance dev cal raw cfg) inputs hhost
      rw [hab hidle] at htr
      rw [hab' hidle] at htr'
      refine ⟨t, t', ht, ht', ?_⟩
      simp only [State.observed, hl, hl', hp, hp', hr, hr', hm, hm', he, he', htr, htr']
      rfl
    | cmd w => exact step_word_withInstance_observed dev cal raw cfg hidle hlife (.inl hhost)
    | cmdIfOk w =>
      by_cases hok : s.resp.status = 0
      · exact step_word_withInstance_observed dev cal raw cfg hidle hlife (.inr ⟨hhost, hok⟩)
      · exact ⟨_, _, followUpIsNotIssuedAfterAnError s w inputs hidle hhost hok,
          followUpIsNotIssuedAfterAnError (s.withInstance dev cal raw cfg) w inputs hidle hhost hok, rfl⟩

end Sys2Proof.Machine
end

section
/-! PROOFS. The assembler (spec/30_encoding.md R95, R96). -/

namespace Sys2Proof

/-! ## A word -/

theorem asmWord_toNat {op n : Nat} (hop : op < 256) (hn : n < 256) : (asmWord op n).toNat = 256 * op + n := by
  have hor : (op <<< 8) ||| n = 256 * op + n := by
    rw [← Nat.shiftLeft_add_eq_or_of_lt (i := 8) hn, Nat.shiftLeft_eq, Nat.mul_comm]
  rw [asmWord, hor, BitVec.toNat_ofNat, Nat.mod_eq_of_lt (by omega)]

theorem asmWord_eq_commandWord {op n : Nat} (hop : op < 256) (hn : n < 256) :
    asmWord op n = commandWord (BitVec.ofNat 8 op) (BitVec.ofNat 8 n) := by
  apply BitVec.eq_of_toNat_eq
  rw [asmWord_toNat hop hn, commandWord, BitVec.toNat_append, BitVec.toNat_ofNat, BitVec.toNat_ofNat,
    Nat.mod_eq_of_lt hop, Nat.mod_eq_of_lt hn, ← Nat.shiftLeft_add_eq_or_of_lt hn, Nat.shiftLeft_eq, Nat.mul_comm]

/-! ## The words of a line -/

theorem stripComment_eq_self {cs : List Char} (h : ∀ c ∈ cs, c ≠ ';') : stripComment cs = cs := by
  induction cs with
  | nil => rfl
  | cons c cs ih =>
    obtain ⟨hc, hcs⟩ := List.forall_mem_cons.mp h
    rw [stripComment, if_neg hc, ih hcs]

/-- The word `w` is read to the end before anything else. -/
theorem splitWords_append {w : List Char} (acc rest : List Char) (h : ∀ c ∈ w, ¬ (c = ' ' ∨ c = '\t')) :
    splitWords acc (w ++ rest) = splitWords (w.reverse ++ acc) rest := by
  induction w generalizing acc with
  | nil => rfl
  | cons c w ih =>
    obtain ⟨hc, hw⟩ := List.forall_mem_cons.mp h
    rw [List.cons_append, splitWords, if_neg hc, ih _ hw, List.reverse_cons, List.append_assoc]
    rfl

theorem splitWords_word {m : List Char} (hm : m ≠ []) (h : ∀ c ∈ m, ¬ (c = ' ' ∨ c = '\t')) :
    splitWords [] m = [m] := by
  have hsplit := splitWords_append [] [] h
  rw [List.append_nil, List.append_nil, splitWords] at hsplit
  simpa [hm] using hsplit

theorem splitWords_word_word {m w : List Char} (hm : m ≠ []) (hw : w ≠ []) (hmc : ∀ c ∈ m, ¬ (c = ' ' ∨ c = '\t'))
    (hwc : ∀ c ∈ w, ¬ (c = ' ' ∨ c = '\t')) : splitWords [] (m ++ ' ' :: w) = [m, w] := by
  rw [splitWords_append [] _ hmc, splitWords, splitWords_word hw hwc]
  simp [hm]

/-- A character of a word: no blank, no tab, no comment. -/
def isWordChar (c : Char) : Prop := c ≠ ' ' ∧ c ≠ '\t' ∧ c ≠ ';'

theorem isWordChar.not_blank {c : Char} (h : isWordChar c) : ¬ (c = ' ' ∨ c = '\t') :=
  not_or.mpr ⟨h.1, h.2.1⟩

/-- A line of one word. -/
theorem assembleLine_word {m : List Char} (hm : m ≠ []) (hmc : ∀ c ∈ m, isWordChar c) :
    assembleLine m = assembleWords [m] := by
  rw [assembleLine, stripComment_eq_self fun c hc => (hmc c hc).2.2,
    splitWords_word hm fun c hc => (hmc c hc).not_blank]

/-- A line of two words. -/
theorem assembleLine_word_word {m w : List Char} (hm : m ≠ []) (hw : w ≠ []) (hmc : ∀ c ∈ m, isWordChar c)
    (hwc : ∀ c ∈ w, isWordChar c) : assembleLine (m ++ ' ' :: w) = assembleWords [m, w] := by
  have hline : ∀ c ∈ m ++ ' ' :: w, c ≠ ';' := by
    simp only [List.mem_append, List.mem_cons]
    rintro c (hc | rfl | hc)
    · exact (hmc c hc).2.2
    · decide
    · exact (hwc c hc).2.2
  rw [assembleLine, stripComment_eq_self hline,
    splitWords_word_word hm hw (fun c hc => (hmc c hc).not_blank) fun c hc => (hwc c hc).not_blank]

/-! ## The rows -/

theorem nodup_mnemonics : (asmRows.map AsmRow.mnemonic).Nodup := by decide

theorem mnemonic_ne_nil : ∀ row ∈ asmRows, row.mnemonic ≠ [] := by decide

theorem mnemonic_isWordChar : ∀ row ∈ asmRows, ∀ c ∈ row.mnemonic, isWordChar c := by
  have hall : (asmRows.all fun row => row.mnemonic.all fun c => c != ' ' && c != '\t' && c != ';') = true := rfl
  simpa [isWordChar, and_assoc] using hall

/-- A mnemonic of its own finds its row. -/
theorem find?_mnemonic_of_nodup {rows : List AsmRow} {row : AsmRow} (h : (rows.map AsmRow.mnemonic).Nodup)
    (hrow : row ∈ rows) : rows.find? (fun r => r.mnemonic == row.mnemonic) = some row := by
  induction rows with
  | nil => cases hrow
  | cons r rows ih =>
    obtain ⟨hr, hrows⟩ := List.nodup_cons.mp h
    obtain rfl | hrow := List.mem_cons.mp hrow
    · simp
    · have hne : r.mnemonic ≠ row.mnemonic := fun heq => hr (heq ▸ List.mem_map_of_mem hrow)
      rw [List.find?_cons_of_neg (by simpa using hne), ih hrows hrow]

/-- A row's mnemonic and an operand. -/
theorem assembleWords_operand {row : AsmRow} (hrow : row ∈ asmRows) (w : List Char) :
    assembleWords [row.mnemonic, w] =
      if row.takesOperand then (asmOperand row w).map (fun n => [asmWord row.op n]) else none := by
  rw [assembleWords, find?_mnemonic_of_nodup nodup_mnemonics hrow]

/-- The rows without operand are neither of the two mnemonics with a line of their own. -/
theorem mnemonic_of_bare : ∀ row ∈ asmRows, row.takesOperand = false →
    row.mnemonic ≠ "INIT".toList ∧ row.mnemonic ≠ "MEASURE".toList := by
  decide

/-- A row's mnemonic alone. -/
theorem assembleWords_bare {row : AsmRow} (hrow : row ∈ asmRows) (hbare : row.takesOperand = false) :
    assembleWords [row.mnemonic] = some [asmWord row.op 0] := by
  obtain ⟨hinit, hmeasure⟩ := mnemonic_of_bare row hrow hbare
  rw [assembleWords, if_neg hinit, if_neg hmeasure, find?_mnemonic_of_nodup nodup_mnemonics hrow]
  simp [hbare]

theorem asmOperand_name : ∀ row ∈ asmRows, ∀ p ∈ row.names, asmOperand row p.1 = some p.2 := by decide

/-- Settles O58. -/
theorem assemblerWords : Obligations.AssemblerWords := by
  refine ⟨fun op n hop hn => ⟨asmWord_toNat hop hn, asmWord_eq_commandWord hop hn⟩, by decide, by decide,
    fun row hrow htakes w n hw hwc hn => ?_, asmOperand_name, fun row _ w n hname hnumber => ?_,
    fun row hrow hbare => ⟨?_, fun w hw hwc => ?_⟩, by decide, by decide, by decide⟩
  · rw [assembleLine_word_word (mnemonic_ne_nil row hrow) hw (mnemonic_isWordChar row hrow) hwc,
      assembleWords_operand hrow, if_pos htakes, hn]
    rfl
  · rw [asmOperand, hname, hnumber]
  · rw [assembleLine_word (mnemonic_ne_nil row hrow) (mnemonic_isWordChar row hrow), assembleWords_bare hrow hbare]
  · rw [assembleLine_word_word (mnemonic_ne_nil row hrow) hw (mnemonic_isWordChar row hrow) hwc,
      assembleWords_operand hrow, hbare]
    rfl

end Sys2Proof
end
